-- ==== Sys2Proof/Word.lean ====
section
/-! DEFINITION. The widths the spec fixes: a byte (00_scope.md R9), a register-space address (20_memory.md R61) and a
measurement word (45_response_check.md R236). -/

namespace Sys2Proof

/-- Every register, field and raw stream byte is an unsigned 8-bit value (R9). -/
abbrev Byte := BitVec 8

/-- A register-space address is 10 bits wide (R61, parameter table R8). -/
abbrev Addr := BitVec 10

/-- A measurement word is 32 bits wide (R236). -/
abbrev Word32 := BitVec 32

end Sys2Proof
end

