-- ==== Sys2Proof/Machine/Binary32.lean ====
section
/-! DEFINITION. The host's reading of a measurement word as a binary32 value (45_response_check.md R240). The block never inspects
these bits (R239). -/

namespace Sys2Proof.Machine

/-- A binary32 value: a finite one is `(-1)^neg * significand * 2^exponent`, exactly (log 21). -/
inductive Binary32
  | finite (neg : Bool) (significand : Nat) (exponent : Int)
  | infinite (neg : Bool)
  | nan
  deriving DecidableEq, Repr

/-- Bit 31 (R240). -/
def b32Sign (w : Word32) : Bool := w.getLsbD 31

/-- Bits 30:23 (R240). -/
def b32Exponent (w : Word32) : Nat := (w.extractLsb' 23 8).toNat

/-- Bits 22:0 (R240). -/
def b32Fraction (w : Word32) : Nat := (w.extractLsb' 0 23).toNat

/-- The value of a measurement word: `1.fraction * 2^(exponent - 127)` for exponents 1..254, and the usual zero, subnormal,
infinity and NaN encodings (R240). -/
def binary32 (w : Word32) : Binary32 :=
  if b32Exponent w = 0 then .finite (b32Sign w) (b32Fraction w) (-149)
  else if b32Exponent w = 255 then
    if b32Fraction w = 0 then .infinite (b32Sign w) else .nan
  else .finite (b32Sign w) (2 ^ 23 + b32Fraction w) ((b32Exponent w : Int) - 150)

end Sys2Proof.Machine
end

