-- ==== Sys2Proof/Machine/Checksum.lean ====
section
/-! DEFINITION. The checksum (42_checksum.md R140 to R147). -/

namespace Sys2Proof.Machine

/-- The sum of a byte sequence modulo 256: `acc` of R140. -/
def byteSum : List Byte → Byte
  | [] => 0#8
  | b :: s => b + byteSum s

/-- `Cks(s)`: the complemented sum (R140). -/
def cks (s : List Byte) : Byte := ~~~(byteSum s)

end Sys2Proof.Machine
end

