-- ==== Sys2Proof/Config.lean ====
section
/-! DEFINITION. The constants the spec fixes (00_scope.md R8) and the free values it leaves open
(93_implementation_defined.md part 1). -/

namespace Sys2Proof.Config

/-- The frame delimiter (R8, R13). -/
def delimiter : Byte := 0x7E#8

/-- The escape marker (R8, R13). -/
def escapeMarker : Byte := 0x7D#8

/-- The bit a stuffed byte differs in from its logical byte: `b ^ 0x20` (R121). -/
def escapeFlip : Byte := 0x20#8

/-- `LEN_MAX`, the largest payload length (R8). -/
def lenMax : Nat := 255

/-- The payload size of a measurement, 40 bytes (R8). -/
def measurementLen : Byte := 0x28#8

/-- The default of the host's `max_retries`, taken by a call that leaves it out (R8, 46_host_operations.md R260, R265). -/
def maxRetriesDefault : Nat := 100

/-- The number of entries of each payload buffer (R8, R37). -/
def payloadEntries : Nat := 256

/-- A byte the spec calls unspecified, "any value" (93 I1, I3, I4). It has no body, so nothing can be proved of it.
The argument is State's counter `free`, which advances with every draw. UNVERIFIED, safe, log 3. -/
opaque freeByte : Nat → Byte

end Sys2Proof.Config
end

