-- ==== Sys2Proof/Machine/Codec.lean ====
section
/-! DEFINITION. The byte-stuffing codec (41_byte_codec.md R120 to R129). -/

namespace Sys2Proof.Machine

/-- Membership in `RSV = {0x7E, 0x7D, 0x11, 0x13}` (R121). -/
def isReserved (b : Byte) : Bool := b == 0x7E#8 || b == 0x7D#8 || b == 0x11#8 || b == 0x13#8

/-- `Stuff(b)` (R122). -/
def stuff (b : Byte) : List Byte :=
  if isReserved b then [Config.escapeMarker, b ^^^ Config.escapeFlip] else [b]

/-- `StuffSeq(s)` (R122). -/
def stuffSeq : List Byte → List Byte
  | [] => []
  | b :: s => stuff b ++ stuffSeq s

/-- `UnEsc` on the raw byte after `0x7D` (R120); `none` is the table's last row, the STUFFING error of R126. -/
def unEsc (r : Byte) : Option Byte :=
  if r = 0x5E#8 then some 0x7E#8
  else if r = 0x31#8 then some 0x11#8
  else if r = 0x33#8 then some 0x13#8
  else if r = 0x5D#8 then some 0x7D#8
  else none

/-- What unstuffing from the front of a raw sequence gives: a value with the raw bytes left and how many were taken, a bad
escape (the bad byte and how many raw bytes were taken), or too few bytes, where the block waits (R123). -/
inductive Unstuffed (α : Type)
  | got (v : α) (taken : Nat) (rest : List Byte)
  | bad (r : Byte) (taken : Nat)
  | short
  deriving DecidableEq, Repr

/-- `Unstuff1(raws)` (R123). -/
def unstuff1 : List Byte → Unstuffed Byte
  | [] => .short
  | r0 :: rest =>
    if r0 = Config.escapeMarker then
      match rest with
      | [] => .short
      | r1 :: rest' =>
        match unEsc r1 with
        | some v => .got v 2 rest'
        | none => .bad r1 2
    else .got r0 1 rest

/-- `[Unstuff1 repeated n times]` (44_frame_decoder.md R201). -/
def unstuffN : Nat → List Byte → Unstuffed (List Byte)
  | 0, raws => .got [] 0 raws
  | n + 1, raws =>
    match unstuff1 raws with
    | .short => .short
    | .bad r k => .bad r k
    | .got v k rest =>
      match unstuffN n rest with
      | .short => .short
      | .bad r k' => .bad r (k + k')
      | .got vs k' rest' => .got (v :: vs) (k + k') rest'

end Sys2Proof.Machine
end

