-- ==== Sys2Proof/Machine/Frame.lean ====
section
/-! DEFINITION. Frames as raw byte sequences: the command frame (30_encoding.md R96, 43_frame_encoder.md R165), the response
frame (R97, R167) and `DecodeFrame` (44_frame_decoder.md R201). -/

namespace Sys2Proof.Machine

/-- `zext`-free length byte of a payload of at most 255 bytes. -/
def lenByte (p : List Byte) : Byte := BitVec.ofNat 8 p.length

/-- The covered logical bytes of a command frame: ADDR, CMD, LEN, DATA (42_checksum.md R141). -/
def commandBody (a c : Byte) (p : List Byte) : List Byte := a :: c :: lenByte p :: p

/-- The covered logical bytes of a response frame: ADDR, CMD, STATE, LEN, DATA (42_checksum.md R142). -/
def responseBody (a c st : Byte) (p : List Byte) : List Byte := a :: c :: st :: lenByte p :: p

/-- A delimited frame around covered bytes: the delimiters raw, every other byte stuffed, the checksum last (R165). -/
def frameOf (body : List Byte) : List Byte :=
  Config.delimiter :: (stuffSeq (body ++ [cks body]) ++ [Config.delimiter])

/-- `EncodeFrame(a, c, p)` (R165). -/
def encodeFrame (a c : Byte) (p : List Byte) : List Byte := frameOf (commandBody a c p)

/-- The correct response frame of R167. -/
def responseFrame (a c st : Byte) (p : List Byte) : List Byte := frameOf (responseBody a c st p)

/-- The fields DEC hands over (R201). -/
structure Packet where
  addr : Byte
  cmd : Byte
  state : Byte
  len : Byte
  payload : List Byte
  cksum : Byte
  cksumCalc : Byte
  deriving DecidableEq, Repr

/-- The result of one DEC on a raw stream (R201): a packet or an error, each with the count of raw bytes consumed (R202), or a
stream too short, where DEC holds (R207). -/
inductive Decoded
  | packet (p : Packet) (consumed : Nat)
  | framing (stop : Bool) (r : Byte) (consumed : Nat)
  | stuffing (r : Byte) (consumed : Nat)
  | checksum (k : Byte) (consumed : Nat)
  | holds
  deriving DecidableEq, Repr

/-- The end of `DecodeFrame`, from the trailing delimiter on (R201): `got` is `[a, c, st, n] ++ p ++ [k]` split up. -/
def decodeEnd (strict : Bool) (a c st n : Byte) (p : List Byte) (k : Byte) (consumed : Nat) : List Byte → Decoded
  | [] => .holds
  | r :: _ =>
    let computed := cks (a :: c :: st :: n :: p)
    if r ≠ Config.delimiter then .framing true r (consumed + 1)
    else if strict && k != computed then .checksum k (consumed + 1)
    else .packet { addr := a, cmd := c, state := if strict then st else c, len := n, payload := p,
                   cksum := if strict then k else c, cksumCalc := computed } (consumed + 1)

/-- The middle of `DecodeFrame`: the payload and the checksum, then the end (R201). -/
def decodeTail (strict : Bool) (a c st n : Byte) (consumed : Nat) (raws : List Byte) : Decoded :=
  match unstuffN n.toNat raws with
  | .short => .holds
  | .bad r t => .stuffing r (consumed + t)
  | .got p t rest =>
    match unstuff1 rest with
    | .short => .holds
    | .bad r t' => .stuffing r (consumed + t + t')
    | .got k t' rest' => decodeEnd strict a c st n p k (consumed + t + t') rest'

/-- The four header fields of `DecodeFrame`, each by one `Unstuff1`, then the rest (R201). -/
def decodeHeader (strict : Bool) (consumed : Nat) (raws : List Byte) : Decoded :=
  match unstuffN 4 raws with
  | .short => .holds
  | .bad r t => .stuffing r (consumed + t)
  | .got h t rest =>
    match h with
    | [a, c, st, n] => decodeTail strict a c st n (consumed + t) rest
    | _ => .holds

/-- `DecodeFrame(strict, raws)` (R201). -/
def decodeFrame (strict : Bool) : List Byte → Decoded
  | [] => .holds
  | r :: raws => if r ≠ Config.delimiter then .framing false r 1 else decodeHeader strict 1 raws

/-- The command packet that a raw command frame carries, read back as the far end of the wire reads it: the fields of R96,
the checksum verified, nothing left over. -/
def parseCommandFrame : List Byte → Option (Byte × Byte × List Byte)
  | [] => none
  | r :: raws =>
    if r ≠ Config.delimiter then none else
    match unstuffN 3 raws with
    | .got [a, c, n] _ rest =>
      match unstuffN n.toNat rest with
      | .got p _ rest' =>
        match unstuff1 rest' with
        | .got k _ [e] => if e = Config.delimiter && k == cks (a :: c :: n :: p) then some (a, c, p) else none
        | _ => none
      | _ => none
    | _ => none

end Sys2Proof.Machine
end

