-- ==== Sys2Proof/Syntax.lean ====
section
/-! DEFINITION. The syntax: one constructor of `Instr` per row of spec/opcode_table.json, and the host's script
statements and calls (30_encoding.md R103, R104). -/

namespace Sys2Proof

/-- The block's operations (30_encoding.md R92) and the two wire commands (R101). No row has an operand field (R90). -/
inductive Instr
  | nop
  | enc
  | dec
  | encStart
  | encRead
  | chkAck
  | chkMeas
  | reserved7
  | reserved8
  | reserved9
  | reservedA
  | reservedB
  | reservedC
  | reservedD
  | reservedE
  | reservedF
  | wireStartMeasurement
  | wireReadMeasuredValues
  deriving DecidableEq, Repr

/-- The two encoding levels of 30_encoding.md: a byte written to OP, or the CMD byte of a command frame. -/
inductive Format
  | op
  | wireCmd
  deriving DecidableEq, Repr

/-- A register named in a host script (R103): a register of 10_state.md R22, or an entry of a payload buffer. -/
inductive RegName
  | ctrl | op | status | errcode | errbyte
  | txAddr | txCmd | txLen | txCksum
  | rxAddr | rxCmd | rxState | rxLen | rxCksum | rxCksumCalc
  | txp (i : Nat)
  | rxp (i : Nat)
  deriving DecidableEq, Repr

/-- The host-script statements that act on the block (R103). `rx` is an input of the transport and `tx?` an assertion on
the TX stream: neither is an access. -/
inductive HostStmt
  /-- `wr NAME, v` -/
  | wr (name : RegName) (v : Byte)
  /-- `rd NAME` -/
  | rd (name : RegName)
  /-- `op MNEMONIC` -/
  | op (i : Instr)
  /-- `wait` -/
  | wait
  deriving DecidableEq, Repr

/-- The host operations (46_host_operations.md R262, R263, R265), and a script of plain statements (R103). -/
inductive HostCall
  /-- `SEND a, c, [p0 .. pn-1]` (R262) -/
  | send (a c : Byte) (payload : List Byte)
  /-- `RECV` (R262) -/
  | recv
  /-- `START_MEASUREMENT` (R263) -/
  | startMeasurement
  /-- `READ_MEASURED_VALUES n` (R265); `none` is a call that leaves the count out (R260); a count is non-negative by its type
  (93 I18) -/
  | readMeasuredValues (maxRetries : Option Nat)
  /-- the statements of a program of 95_test_vectors.md part 3 -/
  | script (stmts : List HostStmt)
  deriving DecidableEq, Repr

end Sys2Proof
end

