-- ==== Sys2Proof/WellFormed.lean ====
section
/-! DEFINITION. What the host may write down: the checks on names, statements and calls. An instruction has no operand
fields (30_encoding.md R90), so every `Instr` is well-formed. -/

namespace Sys2Proof

/-- The encoding level of an instruction (30_encoding.md R92 for OP, R101 for the wire). -/
def Instr.format : Instr → Format
  | .nop => .op
  | .enc => .op
  | .dec => .op
  | .encStart => .op
  | .encRead => .op
  | .chkAck => .op
  | .chkMeas => .op
  | .reserved7 => .op
  | .reserved8 => .op
  | .reserved9 => .op
  | .reservedA => .op
  | .reservedB => .op
  | .reservedC => .op
  | .reservedD => .op
  | .reservedE => .op
  | .reservedF => .op
  | .wireStartMeasurement => .wireCmd
  | .wireReadMeasuredValues => .wireCmd

/-- Every instruction is well-formed: there is nothing in it to check (R90). -/
def Instr.wellFormed (_ : Instr) : Bool := true

/-- A payload buffer has the entries 0..255 (10_state.md R37). -/
def RegName.wellFormed : RegName → Bool
  | .txp i => i < Config.payloadEntries
  | .rxp i => i < Config.payloadEntries
  | _ => true

/-- `op MNEMONIC` takes a mnemonic of the operation-code table, not a wire command (R103). -/
def HostStmt.wellFormed : HostStmt → Bool
  | .wr n _ => n.wellFormed
  | .rd n => n.wellFormed
  | .op i => i.format == .op
  | .wait => true

/-- A `SEND` payload has at most 255 bytes (00_scope.md R8); a script holds well-formed statements. -/
def HostCall.wellFormed : HostCall → Bool
  | .send _ _ p => p.length ≤ Config.lenMax
  | .script l => l.all HostStmt.wellFormed
  | .recv => true
  | .startMeasurement => true
  | .readMeasuredValues _ => true

end Sys2Proof
end

