-- ==== Sys2Proof/Decode.lean ====
section
/-! DEFINITION. The decoder and the encoder of the two formats of spec/opcode_table.json: the operation codes
(30_encoding.md R90 to R93) and the wire command codes (R101). -/

namespace Sys2Proof

/-- Why a word is no instruction. -/
inductive DecodeError
  /-- there is no byte to read -/
  | noWord
  /-- a CMD byte R101 does not name -/
  | unknownWireCommand (c : Byte)
  deriving DecidableEq, Repr

/-- The decoder's answer: an instruction with the bytes after it, or a rejection by name. -/
inductive DecodeResult
  | ok (i : Instr) (rest : List Byte)
  | rejected (why : DecodeError)
  deriving DecidableEq, Repr

/-- The field OPC = v[3:0] of a byte written to OP (R90). -/
def opcField (v : Byte) : BitVec 4 := v.extractLsb' 0 4

/-- The operation-code table (R92, R93); it is total (R91). -/
def decodeOpc (opc : BitVec 4) : Instr :=
  if opc = 0x0#4 then .nop
  else if opc = 0x1#4 then .enc
  else if opc = 0x2#4 then .dec
  else if opc = 0x3#4 then .encStart
  else if opc = 0x4#4 then .encRead
  else if opc = 0x5#4 then .chkAck
  else if opc = 0x6#4 then .chkMeas
  else if opc = 0x7#4 then .reserved7
  else if opc = 0x8#4 then .reserved8
  else if opc = 0x9#4 then .reserved9
  else if opc = 0xA#4 then .reservedA
  else if opc = 0xB#4 then .reservedB
  else if opc = 0xC#4 then .reservedC
  else if opc = 0xD#4 then .reservedD
  else if opc = 0xE#4 then .reservedE
  else .reservedF

/-- The operation that a byte written to OP names: bits 7:4 are ignored (R90). -/
def decodeOp (v : Byte) : Instr := decodeOpc (opcField v)

/-- The wire command that a CMD byte names (R101). -/
def decodeWireCmd (c : Byte) : Option Instr :=
  if c = 0x00#8 then some .wireStartMeasurement
  else if c = 0x03#8 then some .wireReadMeasuredValues
  else none

/-- The decoder: the format says which of the two levels the bytes are read at. Total on any bytes. -/
def decode (f : Format) (bytes : List Byte) : DecodeResult :=
  match f, bytes with
  | _, [] => .rejected .noWord
  | .op, v :: rest => .ok (decodeOp v) rest
  | .wireCmd, c :: rest =>
    match decodeWireCmd c with
    | some i => .ok i rest
    | none => .rejected (.unknownWireCommand c)

/-- The command payload of a wire command: `[0x01, 0x03]` for start measurement, none for the read (R101). -/
def wirePayload : Instr → List Byte
  | .wireStartMeasurement => [0x01#8, 0x03#8]
  | _ => []

/-- The wire command that a whole raw command frame is, if it is one of the two of R101, which are sent with address 0x00. -/
def decodeWireFrame (raw : List Byte) : Option Instr :=
  match Machine.parseCommandFrame raw with
  | none => none
  | some (a, c, p) =>
    match decodeWireCmd c with
    | none => none
    | some i => if a = 0x00#8 && p == wirePayload i then some i else none

/-- The code of an instruction: its OPC (R92) or its CMD byte (R101). -/
def opcode : Instr → Byte
  | .nop => 0x00#8
  | .enc => 0x01#8
  | .dec => 0x02#8
  | .encStart => 0x03#8
  | .encRead => 0x04#8
  | .chkAck => 0x05#8
  | .chkMeas => 0x06#8
  | .reserved7 => 0x07#8
  | .reserved8 => 0x08#8
  | .reserved9 => 0x09#8
  | .reservedA => 0x0A#8
  | .reservedB => 0x0B#8
  | .reservedC => 0x0C#8
  | .reservedD => 0x0D#8
  | .reservedE => 0x0E#8
  | .reservedF => 0x0F#8
  | .wireStartMeasurement => 0x00#8
  | .wireReadMeasuredValues => 0x03#8

/-- The encoder: the one byte of an instruction, at its format's level. -/
def encode (i : Instr) : List Byte := [opcode i]

/-- The raw command frame of a wire command (R101). -/
def encodeWireFrame (i : Instr) : List Byte := Machine.encodeFrame 0x00#8 (opcode i) (wirePayload i)

/-- The byte of a table word that the hardware takes: the first, since every row is one byte wide (R90, R101). -/
def tableByte (w : Nat) : Byte := BitVec.ofNat 8 w

/-- The instruction the block reads from a table word. An OP write is the only word the block fetches (30_encoding.md R95), so
the word is read at the OP level; the CMD bytes 0x00 and 0x03 are therefore read as NOP and ENC_START (log 7). -/
def decodeTableWord (nbits w : Nat) : Option Instr :=
  match decode .op (if nbits = 0 then [] else [tableByte w]) with
  | .ok i _ => some i
  | .rejected _ => none

end Sys2Proof
end

