-- ==== Sys2Proof/Machine/Memory.lean ====
section
/-! DEFINITION. The addressed storage of the register space (20_memory.md R60 to R62): the payload buffers TXP at 0x100 and RXP
at 0x200, kept as cells in strictly rising order of address. -/

namespace Sys2Proof.Machine

/-- The cells written and still specified, by register-space address. -/
abbrev Memory := List Host.Cell

/-- The address of TXP[0] (R62). -/
def txpBase : Nat := 0x100

/-- The address of RXP[0] (R62). -/
def rxpBase : Nat := 0x200

/-- The first address above RXP[255] (R62). -/
def payloadEnd : Nat := 0x300

/-- What an unlisted address holds: no value, since a payload entry is unspecified until it is written
(70_reset_and_hazards.md R331, R341). DESIGN CHOICE, safe, log 4. -/
def Memory.unlisted : Option Byte := none

/-- One byte. -/
def Memory.read : Memory → Nat → Option Byte
  | [], _ => Memory.unlisted
  | (k, b) :: m, a => if k = a then some b else Memory.read m a

/-- Write one byte, keeping the order. -/
def Memory.write : Memory → Nat → Byte → Memory
  | [], a, b => [(a, b)]
  | (k, c) :: m, a, b =>
    if a < k then (a, b) :: (k, c) :: m
    else if a = k then (a, b) :: m
    else (k, c) :: Memory.write m a b

/-- Every entry of RXP becomes unspecified (44_frame_decoder.md R203). -/
def Memory.forgetRxp (m : Memory) : Memory := m.filter (fun c => decide (c.1 < rxpBase))

/-- `n` bytes in address order, if each of them has a value. -/
def Memory.readBlock (m : Memory) (a : Nat) : Nat → Option (List Byte)
  | 0 => some []
  | n + 1 =>
    match m.read a with
    | none => none
    | some b =>
      match Memory.readBlock m (a + 1) n with
      | none => none
      | some bs => some (b :: bs)

/-- Every key of the list lies above `lo`, and the keys rise strictly. -/
def Memory.risingFrom (lo : Nat) : Memory → Bool
  | [] => true
  | (k, _) :: m => decide (lo ≤ k) && Memory.risingFrom (k + 1) m

/-- The canonical form: addresses strictly rising, all of them payload-buffer addresses. No listed cell equals what an
unlisted address holds, since that is no value. -/
def Memory.wf (m : Memory) : Bool := m.risingFrom txpBase && m.all (fun c => decide (c.1 < payloadEnd))

end Sys2Proof.Machine
end

