-- ==== Sys2Proof/Machine/State.lean ====
section
/-! DEFINITION. The machine's state (10_state.md), the ports and inputs of the world outside it (20_memory.md R63), the host agent
(46_host_operations.md), and the reasons a step stops. -/

namespace Sys2Proof.Machine

/-- The sequencer states of h.fsm (10_state.md R41). -/
inductive Fsm
  | idle | encEmit | decSof | decAddr | decCmd | decState | decLen | decData | decCks | decEof
  deriving DecidableEq, Repr

/-- The transport's input levels on one step (R63). `rxValid` offers the first byte of `rxStream`, if there is one. -/
structure Ports where
  rxValid : Bool
  rxErr : Bool
  txReady : Bool
  txErr : Bool
  deriving DecidableEq, Repr

/-- One access of the host (R61), or a wire command it has the block send (30_encoding.md R101, log 7). -/
inductive HostAct
  | read (a : Addr)
  | write (a : Addr) (v : Byte)
  | command (cmd : Byte)
  deriving DecidableEq, Repr

/-- What the world outside the block does on one step. One agent moves at a time (R77, log 1). -/
inductive Input
  /-- the port rst is sampled at this level (70_reset_and_hazards.md R330) -/
  | rst (level : Bool)
  /-- the host makes one access -/
  | host (act : HostAct)
  /-- a block step against these transport levels (R64, R65) -/
  | ports (p : Ports)
  /-- the transport comes to hold these raw bytes for the block (statement `rx` of R103) -/
  | rx (bytes : List Byte)
  /-- a caller asks the host agent for a host operation (46 R260) -/
  | call (c : HostCall)
  /-- the host agent runs its next statement -/
  | turn
  deriving DecidableEq, Repr

/-- What the host agent has still to do: a script statement, or a piece of the control flow of R262 to R265. -/
inductive HostCtl
  | stmt (s : HostStmt)
  /-- `if STATUS.ERR: fail(ERRCODE)` -/
  | check
  /-- the `fail(ERRCODE)` of a check that found ERR -/
  | fail
  /-- the head of the retry loop, `while attempt < n` -/
  | retry (n : Nat)
  /-- `if STATUS.SAMPLE: return Measurement(…)` -/
  | ifSample
  /-- the read of RXP[i] for a measurement -/
  | collect (i : Nat)
  /-- the return of the ten words -/
  | measure
  /-- `return success` -/
  | succeed
  deriving DecidableEq, Repr

/-- The ten measurement words in the source's order (45_response_check.md R237). -/
structure Measurement where
  massPm1 : Word32
  massPm2_5 : Word32
  massPm4 : Word32
  massPm10 : Word32
  number0_5 : Word32
  number1 : Word32
  number2_5 : Word32
  number4 : Word32
  number10 : Word32
  typicalSize : Word32
  deriving DecidableEq, Repr

/-- The error names a host reports (46_host_operations.md R271). -/
inductive HostError
  | framing (stop : Bool)
  | stuffing
  | checksum
  | unexpectedResponse
  | payloadSize
  | retriesExhausted
  | transport
  | illegalOp
  | noPacket
  /-- no error, or a code 10..15 that the block never writes (93 I9) -/
  | noSuchCode (code : BitVec 4)
  deriving DecidableEq, Repr

/-- How a host operation ended (46 R268: Complete or Failed). -/
inductive HostResult
  | success
  | measurement (m : Measurement)
  | failed (e : HostError)
  deriving DecidableEq, Repr

/-- The host agent: the call that runs, or ran last (R268), what is left of it, the calls that wait for it (R272), the attempts
made (R265), the payload bytes read so far, and the results of the calls that ended, oldest first. -/
structure HostAgent where
  call : Option HostCall
  script : List HostCtl
  waiting : List HostCall
  attempt : Nat
  got : List Byte
  results : List HostResult
  deriving DecidableEq, Repr

/-- The machine: the block's registers (10_state.md R22), payload buffers (R34, R35) and hidden state (R40), then the ports,
the transport's streams, the host agent, the inputs to come and the free-value counter. -/
structure State where
  ctrl : Byte
  op : Byte
  status : Byte
  errcode : Byte
  errbyte : Byte
  txAddr : Byte
  txCmd : Byte
  txLen : Byte
  txCksum : Byte
  rxAddr : Byte
  rxCmd : Byte
  rxState : Byte
  rxLen : Byte
  rxCksum : Byte
  rxCksumCalc : Byte
  mem : Memory
  fsm : Fsm
  esc : Bool
  idx : Byte
  sum : Byte
  ckraw : Byte
  strict : Bool
  txq : List Byte
  rst : Bool
  hostRdata : Byte
  rxStream : List Byte
  txStream : List Byte
  host : HostAgent
  inputs : List Input
  free : Nat
  deriving DecidableEq, Repr

/-- Why the machine stops with a fault. -/
inductive Fault
  /-- Raised by ENC (and any operation that runs it) when its frame includes a TXP entry not written since reset
  (70_reset_and_hazards.md R341, 93 I2). Safe: the hardware goes on with an unspecified byte. -/
  | unwrittenPayload
  deriving DecidableEq, Repr

/-- Why the machine refuses. -/
inductive Refusal
  /-- Raised by `exec` for an instruction with no meaning yet; no arm uses it now. Safe. -/
  | notModelled (mnemonic : String)
  /-- Raised by a host step that asks for a wire command by a CMD byte 30_encoding.md R101 does not name. Safe. -/
  | unknownWireCommand (cmd : Byte)
  /-- Raised by a host step that asks for an ill-formed host operation (`HostCall.wellFormed`). Safe. -/
  | illFormedHostCall
  deriving DecidableEq, Repr

/-- What an operation answers. -/
abbrev Result := Host.Outcome State Fault Refusal

/-- The machine right after reset (70_reset_and_hazards.md R331). The rows the spec gives no value for are log 4 (`mem`), log 3
(`free`) and log 11 (`hostRdata`, the streams, `host`, `inputs`). -/
def State.reset : State where
  ctrl := 0x01#8
  op := 0x00#8
  status := 0x00#8
  errcode := 0x00#8
  errbyte := 0x00#8
  txAddr := 0x00#8
  txCmd := 0x00#8
  txLen := 0x00#8
  txCksum := 0x00#8
  rxAddr := 0x00#8
  rxCmd := 0x00#8
  rxState := 0x00#8
  rxLen := 0x00#8
  rxCksum := 0x00#8
  rxCksumCalc := 0x00#8
  mem := []
  fsm := .idle
  esc := false
  idx := 0#8
  sum := 0#8
  ckraw := 0#8
  strict := true
  txq := []
  rst := false
  hostRdata := 0#8
  rxStream := []
  txStream := []
  host := { call := none, script := [], waiting := [], attempt := 0, got := [], results := [] }
  inputs := []
  free := 0

end Sys2Proof.Machine
end

