-- ==== Sys2Proof/Machine/Flags.lean ====
section
/-! DEFINITION. The fields of CTRL, STATUS and ERRCODE (10_state.md R23, R26, R30): the block's only flags (R38). -/

namespace Sys2Proof.Machine

/-- `v[i]`: bit `i` of a register (00_scope.md R9). -/
def bit (x : Byte) (i : Nat) : Bool := x.getLsbD i

/-- Bit `i` of a register becomes `b`. -/
def setBit (x : Byte) (i : Nat) (b : Bool) : Byte :=
  if b then x ||| BitVec.twoPow 8 i else x &&& ~~~(BitVec.twoPow 8 i)

/-- The bit positions of STATUS (R26). -/
def busyBit : Nat := 0
def doneBit : Nat := 1
def errBit : Nat := 2
def rxValidBit : Nat := 3
def emptyBit : Nat := 4
def ackBit : Nat := 5
def sampleBit : Nat := 6

/-- STATUS.BUSY (R26, R27). -/
def State.busy (s : State) : Bool := bit s.status busyBit
/-- STATUS.DONE (R26). -/
def State.done (s : State) : Bool := bit s.status doneBit
/-- STATUS.ERR (R26). -/
def State.err (s : State) : Bool := bit s.status errBit
/-- STATUS.RX_VALID (R26, R28). -/
def State.rxValid (s : State) : Bool := bit s.status rxValidBit
/-- STATUS.EMPTY (R26, R29). -/
def State.isEmpty (s : State) : Bool := bit s.status emptyBit
/-- STATUS.ACK (R26). -/
def State.ack (s : State) : Bool := bit s.status ackBit
/-- STATUS.SAMPLE (R26). -/
def State.sample (s : State) : Bool := bit s.status sampleBit
/-- CTRL.STRICT (R23). -/
def State.ctrlStrict (s : State) : Bool := bit s.ctrl 0
/-- ERRCODE.CODE (R30). -/
def State.code (s : State) : BitVec 4 := s.errcode.extractLsb' 0 4
/-- ERRCODE.FPOS (R30). -/
def State.fpos (s : State) : Bool := bit s.errcode 4

/-- CTRL keeps bit 0 of a written value; bits 7:1 are reserved and read 0 (R23, 20_memory.md R73). -/
def ctrlOf (v : Byte) : Byte := v &&& 0x01#8

/-- The error kinds the block raises (60_exceptions.md R290). RETRIES_EXHAUSTED is the host's (R298). -/
inductive ErrorKind
  | framing (stop : Bool)
  | stuffing
  | checksum
  | unexpectedResponse
  | payloadSize
  | transport
  | illegalOp
  | noPacket
  deriving DecidableEq, Repr

/-- ERRCODE of an error: CODE in bits 3:0, FPOS in bit 4 (R290, 10_state.md R30). -/
def errcodeOf : ErrorKind → Byte
  | .framing false => 0x01#8
  | .framing true => 0x11#8
  | .stuffing => 0x02#8
  | .checksum => 0x03#8
  | .unexpectedResponse => 0x04#8
  | .payloadSize => 0x05#8
  | .transport => 0x07#8
  | .illegalOp => 0x08#8
  | .noPacket => 0x09#8

/-- STATUS after the start actions: DONE, ERR, ACK and SAMPLE are 0 (30_encoding.md R95). -/
def statusStart (x : Byte) : Byte := setBit (setBit (setBit (setBit x doneBit false) errBit false) ackBit false) sampleBit false

/-- STATUS after `finish()`: BUSY 0, DONE 1 (60_exceptions.md R294). -/
def statusFinish (x : Byte) : Byte := setBit (setBit x busyBit false) doneBit true

/-- STATUS after `raise` outside a DEC: BUSY 0, DONE 1, ERR 1 (60_exceptions.md R295). -/
def statusRaise (x : Byte) : Byte := setBit (statusFinish x) errBit true

/-- RX_VALID and EMPTY set together: cleared by a DEC's start and error (44_frame_decoder.md R191, R203), set by its success
(R200). -/
def statusPacket (x : Byte) (valid empty : Bool) : Byte := setBit (setBit x rxValidBit valid) emptyBit empty

end Sys2Proof.Machine
end

