-- ==== Sys2Proof/Machine/Operands.lean ====
section
/-! DEFINITION. Operand assembly (30_encoding.md R94): what each operation reads from the registers when it starts, and the
registers as the host reads them (20_memory.md R62). -/

namespace Sys2Proof.Machine

/-- The states of a running DEC (10_state.md R41). -/
def Fsm.isDec : Fsm → Bool
  | .idle => false
  | .encEmit => false
  | _ => true

/-- The states in which DEC unstuffs a body field (44_frame_decoder.md R193). -/
def Fsm.isBody : Fsm → Bool
  | .decAddr | .decCmd | .decState | .decLen | .decData | .decCks => true
  | _ => false

/-- The register-space address of a named register (20_memory.md R62). -/
def regAddr : RegName → Addr
  | .ctrl => 0x000#10
  | .op => 0x001#10
  | .status => 0x002#10
  | .errcode => 0x003#10
  | .errbyte => 0x004#10
  | .txAddr => 0x005#10
  | .txCmd => 0x006#10
  | .txLen => 0x007#10
  | .txCksum => 0x008#10
  | .rxAddr => 0x009#10
  | .rxCmd => 0x00A#10
  | .rxState => 0x00B#10
  | .rxLen => 0x00C#10
  | .rxCksum => 0x00D#10
  | .rxCksumCalc => 0x00E#10
  | .txp i => BitVec.ofNat 10 (txpBase + i)
  | .rxp i => BitVec.ofNat 10 (rxpBase + i)

/-- The address of OP (R62). -/
def opAddr : Addr := 0x001#10

/-- TXP[i] (10_state.md R34); `none` when it has not been written since reset. -/
def State.txp (s : State) (i : Nat) : Option Byte := s.mem.read (txpBase + i)

/-- RXP[i] (10_state.md R35); `none` when its value is unspecified. -/
def State.rxp (s : State) (i : Nat) : Option Byte := s.mem.read (rxpBase + i)

/-- The payload an ENC sends: TXP[0 .. TX_LEN - 1], if every entry of it has been written (R94, 70 R341). -/
def State.txPayload (s : State) : Option (List Byte) := s.mem.readBlock txpBase s.txLen.toNat

/-- The payload of the held packet: RXP[0 .. RX_LEN - 1] (44_frame_decoder.md R204). -/
def State.rxPayload (s : State) : Option (List Byte) := s.mem.readBlock rxpBase s.rxLen.toNat

/-- The RX registers and RXP: their value is unspecified while a DEC runs (70_reset_and_hazards.md R338). -/
def isRxAddress (n : Nat) : Bool := decide ((0x009 ≤ n ∧ n ≤ 0x00E) ∨ (rxpBase ≤ n ∧ n < payloadEnd))

/-- The register at an address as it stands (R62); unmapped addresses hold 0x00 (R72); `none` is an unspecified payload entry. -/
def regValue (s : State) (n : Nat) : Option Byte :=
  if n = 0x000 then some s.ctrl
  else if n = 0x001 then some s.op
  else if n = 0x002 then some s.status
  else if n = 0x003 then some s.errcode
  else if n = 0x004 then some s.errbyte
  else if n = 0x005 then some s.txAddr
  else if n = 0x006 then some s.txCmd
  else if n = 0x007 then some s.txLen
  else if n = 0x008 then some s.txCksum
  else if n = 0x009 then some s.rxAddr
  else if n = 0x00A then some s.rxCmd
  else if n = 0x00B then some s.rxState
  else if n = 0x00C then some s.rxLen
  else if n = 0x00D then some s.rxCksum
  else if n = 0x00E then some s.rxCksumCalc
  else if txpBase ≤ n ∧ n < payloadEnd then s.mem.read n
  else some 0x00#8

/-- What a host read of an address returns, `none` for any value: an unspecified entry (93 I1, I3), and the RX registers and
RXP while a DEC runs (93 I4). A read is answered during reset as at any other time: R330 stops writes only (log 6). -/
def hostView (s : State) (a : Addr) : Option Byte :=
  if s.fsm.isDec && isRxAddress a.toNat then none
  else regValue s a.toNat

/-- Is the held packet the canonical empty acknowledgement (45_response_check.md R230 to R232)? -/
def State.isAck (s : State) : Bool :=
  s.rxAddr == 0x00#8 && s.rxCmd == 0x00#8 && s.rxState == 0x00#8 && s.rxLen == 0x00#8
    && (s.ctrlStrict || s.rxCksum == 0x00#8)

/-- The four bytes of a measurement word, the lowest index first (R236). -/
def word32 (b0 b1 b2 b3 : Byte) : Word32 :=
  (b0.zeroExtend 32 <<< 24) ||| (b1.zeroExtend 32 <<< 16) ||| (b2.zeroExtend 32 <<< 8) ||| b3.zeroExtend 32

/-- `MeasWord(k)` of a payload (R236). -/
def measWordOf : List Byte → Nat → Option Word32
  | b0 :: b1 :: b2 :: b3 :: _, 0 => some (word32 b0 b1 b2 b3)
  | _ :: _ :: _ :: _ :: p, k + 1 => measWordOf p k
  | _, _ => none

/-- `MeasWord(k)` of the payload held in RXP (R236). -/
def State.measWord (s : State) (k : Nat) : Option Word32 :=
  match s.rxp (4 * k), s.rxp (4 * k + 1), s.rxp (4 * k + 2), s.rxp (4 * k + 3) with
  | some b0, some b1, some b2, some b3 => some (word32 b0 b1 b2 b3)
  | _, _, _, _ => none

end Sys2Proof.Machine
end

