-- ==== Sys2Proof/Machine/Ops.lean ====
section
/-! DEFINITION. The shared operations: how an operation is accepted and starts (30_encoding.md R95), how it ends without an error
(60_exceptions.md R294) and with one (R295, the block's form of taking an exception), register writes by the host
(20_memory.md R71 to R75), the stream primitives' outputs (R63) and reset (70_reset_and_hazards.md R330, R331). There is no return
from an error: the next accepted operation clears it (60 R304). -/

namespace Sys2Proof.Machine

/-- A block that takes host writes: not busy (R75) and not held in reset (70 R330). -/
def State.accepting (s : State) : Bool := !s.rst && !s.busy

/-- The common start actions: OPC stored, DONE, ERR, ACK, SAMPLE, ERRCODE and ERRBYTE cleared (R95). -/
def startActions (opc : Byte) (s : State) : State :=
  { s with op := opc, status := statusStart s.status, errcode := 0x00#8, errbyte := 0x00#8 }

/-- Dispatch of an operation code (R95): the start actions and then the operation, or nothing at all when the write is
ignored (R75). -/
def accept (opc : Byte) (begin : State → Result) (s : State) : Result :=
  if s.accepting then begin (startActions opc s) else .next s

/-- `finish()` (60_exceptions.md R294). -/
def finish (s : State) : State :=
  { s with status := statusFinish s.status, fsm := .idle, txq := [] }

/-- The RX registers and RXP become unspecified (44_frame_decoder.md R203, 93 I3): free values, log 3. -/
def unspecifyRx (s : State) : State :=
  { s with
    status := statusPacket s.status false false
    rxAddr := Config.freeByte s.free
    rxCmd := Config.freeByte (s.free + 1)
    rxState := Config.freeByte (s.free + 2)
    rxLen := Config.freeByte (s.free + 3)
    rxCksum := Config.freeByte (s.free + 4)
    rxCksumCalc := Config.freeByte (s.free + 5)
    mem := s.mem.forgetRxp
    free := s.free + 6 }

/-- `raise E(info)` (R295): the error is recorded, the sequencer is back at IDLE, and the block waits for the next OP write. -/
def raise (e : ErrorKind) (info : Byte) (s : State) : State :=
  { s with
    status := statusRaise s.status
    errcode := errcodeOf e
    errbyte := info
    fsm := .idle
    esc := false
    txq := [] }

/-- `raise E(info)` in a DEC, which also gives up the packet (R295). -/
def raiseDec (e : ErrorKind) (info : Byte) (s : State) : State := raise e info (unspecifyRx s)

/-- A host write of a register other than OP: it stores where the map says RW and is ignored elsewhere (10_state.md R22,
20_memory.md R72 to R74). -/
def regWrite (a : Addr) (v : Byte) (s : State) : State :=
  let n := a.toNat
  if n = 0x000 then { s with ctrl := ctrlOf v }
  else if n = 0x005 then { s with txAddr := v }
  else if n = 0x006 then { s with txCmd := v }
  else if n = 0x007 then { s with txLen := v }
  else if txpBase ≤ n ∧ n < rxpBase then { s with mem := s.mem.write n v }
  else s

/-- A host write of a register other than OP, under R75 and 70 R330. -/
def hostStore (a : Addr) (v : Byte) (s : State) : State := if s.accepting then regWrite a v s else s

/-- A host read (R61): the value appears at host_rdata; where any value may, a free one does (log 3). The port then shows that
byte until the next read, whatever happens in between: the spec says nothing of host_rdata between reads (R63). DESIGN CHOICE,
unsafe, log 23. -/
def hostRead (a : Addr) (s : State) : State :=
  match hostView s a with
  | some v => { s with hostRdata := v }
  | none => { s with hostRdata := Config.freeByte s.free, free := s.free + 1 }

/-- The port rx_ready: 1 exactly when h.fsm is a DEC_* state (R63), and 0 in reset (70 R330). -/
def State.rxReady (s : State) : Bool := !s.rst && s.fsm.isDec

/-- The port tx_valid: 1 exactly when h.fsm = ENC_EMIT (R63), and 0 in reset (70 R330). -/
def State.txValid (s : State) : Bool := !s.rst && s.fsm == .encEmit

/-- The port tx_data: the byte offered, while one is (R63, R65). -/
def State.txData (s : State) : Option Byte := if s.txValid then s.txq.head? else none

/-- The port rx_valid against the stream: the transport offers a byte only when it holds one (R63, R66). -/
def rxOffer (p : Ports) (s : State) : Option (Byte × List Byte) :=
  match p.rxValid, s.rxStream with
  | true, r :: rest => some (r, rest)
  | _, _ => none

/-- The block's state after reset; the transport, the host and the inputs to come are not touched (70 R331, R333). -/
def resetBlock (s : State) : State :=
  { State.reset with
    hostRdata := s.hostRdata
    rxStream := s.rxStream
    txStream := s.txStream
    host := s.host
    inputs := s.inputs
    free := s.free }

/-- The port rst is sampled (70 R330): while it is 1 the block holds; the step on which it falls leaves the reset values. -/
def sampleRst (level : Bool) (s : State) : State :=
  if level then { s with rst := true } else if s.rst then resetBlock s else s

/-- The transport comes to hold more raw bytes (20 R66). -/
def receive (bytes : List Byte) (s : State) : State := { s with rxStream := s.rxStream ++ bytes }

end Sys2Proof.Machine
end

