-- ==== Sys2Proof/Machine/Check.lean ====
section
/-! DEFINITION. The response checks (45_response_check.md): CHK_ACK and CHK_MEAS. -/

namespace Sys2Proof.Machine

/-- `CHK_ACK()` (R230): NO_PACKET is tested first (60_exceptions.md R302). -/
def chkAck (s : State) : State :=
  if !s.rxValid then raise .noPacket 0x00#8 s
  else if s.isAck then finish { s with status := setBit s.status ackBit true }
  else raise .unexpectedResponse 0x00#8 s

/-- `CHK_MEAS()` (R233). -/
def chkMeas (s : State) : State :=
  if !s.rxValid then raise .noPacket 0x00#8 s
  else if s.rxLen = 0#8 then finish s
  else if s.rxLen = Config.measurementLen then finish { s with status := setBit s.status sampleBit true }
  else raise .payloadSize s.rxLen s

/-- CHK_ACK (R230). -/
def execChkAck (s : State) : Result := accept (opcode .chkAck) (fun s => .next (chkAck s)) s

/-- CHK_MEAS (R233). -/
def execChkMeas (s : State) : Result := accept (opcode .chkMeas) (fun s => .next (chkMeas s)) s

end Sys2Proof.Machine
end

