-- ==== Sys2Proof/Machine/Decoder.lean ====
section
/-! DEFINITION. The frame decoder (44_frame_decoder.md): the start of DEC and one transition per raw byte. -/

namespace Sys2Proof.Machine

/-- `DEC_start()` (R191). -/
def decBegin (s : State) : State :=
  { s with
    strict := s.ctrlStrict
    status := setBit (statusPacket s.status false false) busyBit true
    esc := false
    idx := 0#8
    sum := 0#8
    ckraw := 0#8
    fsm := .decSof }

/-- DEC (R190). -/
def execDec (s : State) : Result := accept (opcode .dec) (fun s => .next (decBegin s)) s

/-- DEC_SOF (R192): the byte is read raw. -/
def decSofByte (r : Byte) (s : State) : State :=
  if r = Config.delimiter then { s with sum := 0#8, fsm := .decAddr } else raiseDec (.framing false) r s

/-- DEC_ADDR delivery (R194). -/
def deliverAddr (v : Byte) (s : State) : State := { s with rxAddr := v, sum := s.sum + v, fsm := .decCmd }

/-- DEC_CMD delivery (R195). -/
def deliverCmd (v : Byte) (s : State) : State := { s with rxCmd := v, sum := s.sum + v, fsm := .decState }

/-- DEC_STATE delivery (R196): REFERENCE copies the command byte. -/
def deliverState (v : Byte) (s : State) : State :=
  { s with rxState := if s.strict then v else s.rxCmd, sum := s.sum + v, fsm := .decLen }

/-- DEC_LEN delivery (R197). -/
def deliverLen (v : Byte) (s : State) : State :=
  { s with rxLen := v, sum := s.sum + v, idx := 0#8, fsm := if v = 0#8 then .decCks else .decData }

/-- DEC_DATA delivery (R198). -/
def deliverData (v : Byte) (s : State) : State :=
  { s with
    mem := s.mem.write (rxpBase + s.idx.toNat) v
    sum := s.sum + v
    idx := s.idx + 1#8
    fsm := if s.idx + 1#8 = s.rxLen then .decCks else .decData }

/-- DEC_CKS delivery (R199): REFERENCE copies the command byte. -/
def deliverCks (v : Byte) (s : State) : State :=
  { s with
    ckraw := v
    rxCksumCalc := ~~~s.sum
    rxCksum := if s.strict then v else s.rxCmd
    fsm := .decEof }

/-- `Deliver(v)`: the logical byte goes to the field DEC is in (41_byte_codec.md R123). -/
def deliver (v : Byte) (s : State) : State :=
  match s.fsm with
  | .decAddr => deliverAddr v s
  | .decCmd => deliverCmd v s
  | .decState => deliverState v s
  | .decLen => deliverLen v s
  | .decData => deliverData v s
  | .decCks => deliverCks v s
  | .idle => s
  | .encEmit => s
  | .decSof => s
  | .decEof => s

/-- `UnstuffStep(r)` (41_byte_codec.md R123, R126). -/
def unstuffStep (r : Byte) (s : State) : State :=
  if s.esc then
    match unEsc r with
    | some v => deliver v { s with esc := false }
    | none => raiseDec .stuffing r { s with esc := false }
  else if r = Config.escapeMarker then { s with esc := true }
  else deliver r s

/-- DEC_EOF (R200): the byte is read raw, and the STRICT comparison comes after the delimiter. -/
def decEofByte (r : Byte) (s : State) : State :=
  if r ≠ Config.delimiter then raiseDec (.framing true) r s
  else if s.strict && s.ckraw != s.rxCksumCalc then raiseDec .checksum s.ckraw s
  else finish { s with status := statusPacket s.status true (s.rxLen == 0#8) }

/-- One raw byte in the state DEC is in (R192 to R200). Outside a DEC no byte is taken. -/
def decByte (r : Byte) (s : State) : State :=
  match s.fsm with
  | .idle => s
  | .encEmit => s
  | .decSof => decSofByte r s
  | .decAddr => unstuffStep r s
  | .decCmd => unstuffStep r s
  | .decState => unstuffStep r s
  | .decLen => unstuffStep r s
  | .decData => unstuffStep r s
  | .decCks => unstuffStep r s
  | .decEof => decEofByte r s

/-- A DEC step with `RxByte` (20_memory.md R64): a transport error wins, else the offered byte is consumed and DEC takes one
transition, else the block holds. -/
def decStep (p : Ports) (s : State) : State :=
  if p.rxErr then raiseDec .transport 0x00#8 s
  else
    match rxOffer p s with
    | none => s
    | some (r, rest) => decByte r { s with rxStream := rest }

end Sys2Proof.Machine
end

