-- ==== Sys2Proof/Machine/Encoder.lean ====
section
/-! DEFINITION. The frame encoder (43_frame_encoder.md): NOP, ENC, ENC_START, ENC_READ, the two wire commands they send
(30_encoding.md R101), and the ENC_EMIT step. -/

namespace Sys2Proof.Machine

/-- `ENC_start()` (R161), the frame of the TX registers; an entry not written since reset is the model's fault (70 R341). -/
def encBegin (s : State) : Result :=
  match s.txPayload with
  | none => .fault .unwrittenPayload
  | some p =>
    .next { s with
      txCksum := cks (commandBody s.txAddr s.txCmd p)
      txq := encodeFrame s.txAddr s.txCmd p
      status := setBit s.status busyBit true
      fsm := .encEmit }

/-- The fixed fields of `ENC_START_start()` (R163). -/
def loadStart (s : State) : State :=
  { s with
    txAddr := 0x00#8
    txCmd := 0x00#8
    txLen := 0x02#8
    mem := (s.mem.write txpBase 0x01#8).write (txpBase + 1) 0x03#8 }

/-- The fixed fields of `ENC_READ_start()` (R164). -/
def loadRead (s : State) : State := { s with txAddr := 0x00#8, txCmd := 0x03#8, txLen := 0x00#8 }

/-- NOP (R160). -/
def execNop (s : State) : Result := accept (opcode .nop) (fun s => .next (finish s)) s

/-- ENC (R161). -/
def execEnc (s : State) : Result := accept (opcode .enc) encBegin s

/-- ENC_START (R163). -/
def execEncStart (s : State) : Result := accept (opcode .encStart) (fun s => encBegin (loadStart s)) s

/-- ENC_READ (R164). -/
def execEncRead (s : State) : Result := accept (opcode .encRead) (fun s => encBegin (loadRead s)) s

/-- The wire command 0x00, start continuous measurement: the block sends it by ENC_START (30_encoding.md R101). DEDUCED, log 7. -/
def execWireStartMeasurement (s : State) : Result :=
  accept (opcode .encStart) (fun s => encBegin (loadStart s)) s

/-- The wire command 0x03, read measured values: the block sends it by ENC_READ (30_encoding.md R101). DEDUCED, log 7. -/
def execWireReadMeasuredValues (s : State) : Result :=
  accept (opcode .encRead) (fun s => encBegin (loadRead s)) s

/-- The ENC_EMIT step (R162) with `TxByte` (20_memory.md R65): a transport error wins, else the first byte of h.txq moves when the
transport is ready, else the block holds. The empty h.txq, which no run reaches, holds (log 12). -/
def encEmitStep (p : Ports) (s : State) : State :=
  if p.txErr then raise .transport 0x00#8 s
  else if p.txReady then
    match s.txq with
    | [] => s
    | [b] => finish { s with txStream := s.txStream ++ [b], txq := [] }
    | b :: q => { s with txStream := s.txStream ++ [b], txq := q }
  else s

end Sys2Proof.Machine
end

