-- ==== Sys2Proof/Machine/Reserved.lean ====
section
/-! DEFINITION. The reserved operation codes 0x7 to 0xF (30_encoding.md R93): each is accepted and ends at once with ILLEGAL_OP
(60_exceptions.md R300). -/

namespace Sys2Proof.Machine

/-- `raise IllegalOp(0)` (R93). -/
def illegalOp (s : State) : Result := .next (raise .illegalOp 0x00#8 s)

/-- RESERVED_7 (R93). -/
def execReserved7 (s : State) : Result := accept (opcode .reserved7) illegalOp s

/-- RESERVED_8 (R93). -/
def execReserved8 (s : State) : Result := accept (opcode .reserved8) illegalOp s

/-- RESERVED_9 (R93). -/
def execReserved9 (s : State) : Result := accept (opcode .reserved9) illegalOp s

/-- RESERVED_A (R93). -/
def execReservedA (s : State) : Result := accept (opcode .reservedA) illegalOp s

/-- RESERVED_B (R93). -/
def execReservedB (s : State) : Result := accept (opcode .reservedB) illegalOp s

/-- RESERVED_C (R93). -/
def execReservedC (s : State) : Result := accept (opcode .reservedC) illegalOp s

/-- RESERVED_D (R93). -/
def execReservedD (s : State) : Result := accept (opcode .reservedD) illegalOp s

/-- RESERVED_E (R93). -/
def execReservedE (s : State) : Result := accept (opcode .reservedE) illegalOp s

/-- RESERVED_F (R93). -/
def execReservedF (s : State) : Result := accept (opcode .reservedF) illegalOp s

end Sys2Proof.Machine
end

