-- ==== Sys2Proof/Machine/Dispatch.lean ====
section
/-! DEFINITION. One arm per instruction. -/

namespace Sys2Proof.Machine

def exec (i : Instr) (s : State) : Host.Outcome State Fault Refusal :=
  match i with
  | .nop => Sys2Proof.Machine.execNop s
  | .enc => Sys2Proof.Machine.execEnc s
  | .dec => Sys2Proof.Machine.execDec s
  | .encStart => Sys2Proof.Machine.execEncStart s
  | .encRead => Sys2Proof.Machine.execEncRead s
  | .chkAck => Sys2Proof.Machine.execChkAck s
  | .chkMeas => Sys2Proof.Machine.execChkMeas s
  | .reserved7 => Sys2Proof.Machine.execReserved7 s
  | .reserved8 => Sys2Proof.Machine.execReserved8 s
  | .reserved9 => Sys2Proof.Machine.execReserved9 s
  | .reservedA => Sys2Proof.Machine.execReservedA s
  | .reservedB => Sys2Proof.Machine.execReservedB s
  | .reservedC => Sys2Proof.Machine.execReservedC s
  | .reservedD => Sys2Proof.Machine.execReservedD s
  | .reservedE => Sys2Proof.Machine.execReservedE s
  | .reservedF => Sys2Proof.Machine.execReservedF s
  | .wireStartMeasurement => Sys2Proof.Machine.execWireStartMeasurement s
  | .wireReadMeasuredValues => Sys2Proof.Machine.execWireReadMeasuredValues s

end Sys2Proof.Machine
end

