-- ==== Sys2Proof/Machine/Block.lean ====
section
/-! DEFINITION. The block's step against the transport, and the host's access port (20_memory.md R61 to R66, R71 to R75). -/

namespace Sys2Proof.Machine

/-- A block step against the transport's levels: nothing moves in reset (70_reset_and_hazards.md R330) or when idle. -/
def blockStep (p : Ports) (s : State) : State :=
  if s.rst then s
  else
    match s.fsm with
    | .idle => s
    | .encEmit => encEmitStep p s
    | .decSof => decStep p s
    | .decAddr => decStep p s
    | .decCmd => decStep p s
    | .decState => decStep p s
    | .decLen => decStep p s
    | .decData => decStep p s
    | .decCks => decStep p s
    | .decEof => decStep p s

/-- A host write (R61): a write of OP runs the operation it names (30_encoding.md R95), any other stores (R71). -/
def hostWrite (a : Addr) (v : Byte) (s : State) : Result :=
  if a = opAddr then exec (decodeOp v) s else .next (hostStore a v s)

/-- One host action: an access, or a wire command the block is to send (30_encoding.md R101, log 7). -/
def hostAct (act : HostAct) (s : State) : Result :=
  match act with
  | .read a => .next (hostRead a s)
  | .write a v => hostWrite a v s
  | .command c =>
    match decode .wireCmd [c] with
    | .ok i _ => exec i s
    | .rejected _ => .refused (.unknownWireCommand c)

end Sys2Proof.Machine
end

