-- ==== Sys2Proof/Machine/HostOps.lean ====
section
/-! DEFINITION. The host agent (46_host_operations.md): the host operations as scripts of statements (30_encoding.md R103, R104),
run one statement a turn. -/

namespace Sys2Proof.Machine

/-- The wait for the operation just started, and the test of its error: `wait; if STATUS.ERR: fail(ERRCODE)`. -/
def waitAndCheck : List HostCtl := [.stmt .wait, .check]

/-- The writes `wr TXP[i], pi` from index `i` on (R262). -/
def writePayload (i : Nat) : List Byte → List HostCtl
  | [] => []
  | b :: p => .stmt (.wr (.txp i) b) :: writePayload (i + 1) p

/-- `SEND a, c, [p0 .. pn-1]` (R262). -/
def sendScript (a c : Byte) (p : List Byte) : List HostCtl :=
  [.stmt (.wr .txAddr a), .stmt (.wr .txCmd c), .stmt (.wr .txLen (lenByte p))]
    ++ writePayload 0 p ++ [.stmt (.op .enc)] ++ waitAndCheck ++ [.succeed]

/-- `RECV` (R262). -/
def recvScript : List HostCtl := [.stmt (.op .dec)] ++ waitAndCheck ++ [.succeed]

/-- `START_MEASUREMENT` (R263). -/
def startScript : List HostCtl :=
  [.stmt (.op .encStart)] ++ waitAndCheck ++ [.stmt (.op .dec)] ++ waitAndCheck
    ++ [.stmt (.op .chkAck), .check, .succeed]

/-- One attempt of `READ_MEASURED_VALUES` (R265). -/
def attemptScript : List HostCtl :=
  [.stmt (.op .encRead)] ++ waitAndCheck ++ [.stmt (.op .dec)] ++ waitAndCheck
    ++ [.stmt (.op .chkMeas), .check, .ifSample]

/-- The reads of RXP[0 .. 39] and the return of the ten words (R265, 45_response_check.md R236). -/
def returnScript : List HostCtl := (List.range Config.measurementLen.toNat).map .collect ++ [.measure]

/-- The statements of a host operation (30_encoding.md R104). A script of plain statements ends with success, whatever its
operations left in STATUS.ERR: the spec gives such a script no result. DESIGN CHOICE, unsafe, log 24. -/
def expandCall : HostCall → List HostCtl
  | .send a c p => sendScript a c p
  | .recv => recvScript
  | .startMeasurement => startScript
  | .readMeasuredValues n => [.retry (n.getD Config.maxRetriesDefault)]
  | .script l => l.map .stmt ++ [.succeed]

/-- The error a host reports for an ERRCODE (R271). -/
def hostErrorOf (e : Byte) : HostError :=
  let code := e.extractLsb' 0 4
  if code = 1#4 then .framing (bit e 4)
  else if code = 2#4 then .stuffing
  else if code = 3#4 then .checksum
  else if code = 4#4 then .unexpectedResponse
  else if code = 5#4 then .payloadSize
  else if code = 6#4 then .retriesExhausted
  else if code = 7#4 then .transport
  else if code = 8#4 then .illegalOp
  else if code = 9#4 then .noPacket
  else .noSuchCode code

/-- The measurement in a 40-byte payload, its words in the order of 45_response_check.md R237. -/
def measurementOf (p : List Byte) : Option Measurement :=
  match measWordOf p 0, measWordOf p 1, measWordOf p 2, measWordOf p 3, measWordOf p 4,
        measWordOf p 5, measWordOf p 6, measWordOf p 7, measWordOf p 8, measWordOf p 9 with
  | some w0, some w1, some w2, some w3, some w4, some w5, some w6, some w7, some w8, some w9 =>
    some { massPm1 := w0, massPm2_5 := w1, massPm4 := w2, massPm10 := w3, number0_5 := w4,
           number1 := w5, number2_5 := w6, number4 := w7, number10 := w8, typicalSize := w9 }
  | _, _, _, _, _, _, _, _, _, _ => none

/-- The ten fields as the host reads them (45_response_check.md R240). -/
def Measurement.values (m : Measurement) : List Binary32 :=
  [m.massPm1, m.massPm2_5, m.massPm4, m.massPm10, m.number0_5, m.number1, m.number2_5, m.number4, m.number10,
    m.typicalSize].map binary32

/-- The statements still to run are replaced. -/
def setScript (l : List HostCtl) (s : State) : State := { s with host := { s.host with script := l } }

/-- The running call ends (R268). -/
def endCall (r : HostResult) (s : State) : State :=
  { s with host := { s.host with script := [], results := s.host.results ++ [r] } }

/-- `wait`: STATUS is read until BUSY is 0 (R103); `rest` is what follows. -/
def runWait (rest : List HostCtl) (s : State) : State :=
  let t := hostRead (regAddr .status) s
  if bit t.hostRdata busyBit then setScript (.stmt .wait :: rest) t else setScript rest t

/-- `if STATUS.ERR: fail(ERRCODE)` (R263, R265). -/
def runCheck (rest : List HostCtl) (s : State) : State :=
  let t := hostRead (regAddr .status) s
  if bit t.hostRdata errBit then setScript [.fail] t else setScript rest t

/-- `fail(ERRCODE)` (R270, R271). -/
def runFail (s : State) : State :=
  let t := hostRead (regAddr .errcode) s
  endCall (.failed (hostErrorOf t.hostRdata)) t

/-- The head of the retry loop: one more attempt, or RETRIES_EXHAUSTED (R265, R266). -/
def runRetry (n : Nat) (s : State) : State :=
  if s.host.attempt < n then
    { s with host := { s.host with attempt := s.host.attempt + 1, script := attemptScript ++ [.retry n] } }
  else endCall (.failed .retriesExhausted) s

/-- `if STATUS.SAMPLE: return Measurement(…)` (R265). -/
def runIfSample (rest : List HostCtl) (s : State) : State :=
  let t := hostRead (regAddr .status) s
  if bit t.hostRdata sampleBit then setScript returnScript t else setScript rest t

/-- The read of one payload byte of the measurement (20_memory.md R70). -/
def runCollect (i : Nat) (rest : List HostCtl) (s : State) : State :=
  let t := hostRead (regAddr (.rxp i)) s
  { t with host := { t.host with script := rest, got := t.host.got ++ [t.hostRdata] } }

/-- The return of the ten words (R265); fewer than forty bytes, which no call reaches, leave the call standing (log 12). -/
def runMeasure (s : State) : State :=
  match measurementOf s.host.got with
  | some m => endCall (.measurement m) s
  | none => s

/-- One statement of the running call; `rest` is what follows it. -/
def runCtl (c : HostCtl) (rest : List HostCtl) (s : State) : Result :=
  match c with
  | .stmt (.wr n v) => hostWrite (regAddr n) v (setScript rest s)
  | .stmt (.rd n) => .next (hostRead (regAddr n) (setScript rest s))
  | .stmt (.op i) => hostWrite opAddr (opcode i) (setScript rest s)
  | .stmt .wait => .next (runWait rest s)
  | .check => .next (runCheck rest s)
  | .fail => .next (runFail s)
  | .retry n => .next (runRetry n s)
  | .ifSample => .next (runIfSample rest s)
  | .collect i => .next (runCollect i rest s)
  | .measure => .next (runMeasure s)
  | .succeed => .next (endCall .success s)

/-- A waiting call becomes the running one (R272); with none the host agent does nothing. -/
def nextCall (s : State) : State :=
  match s.host.waiting with
  | [] => s
  | c :: cs =>
    { s with host := { s.host with call := some c, script := expandCall c, waiting := cs, attempt := 0, got := [] } }

/-- The host agent's turn: the next statement of the running call, or the next call. Calls never overlap (R272). -/
def hostTurn (s : State) : Result :=
  match s.host.script with
  | [] => .next (nextCall s)
  | c :: rest => runCtl c rest s

/-- A caller asks for a host operation; it waits its turn (R272). An ill-formed one is refused. -/
def askCall (c : HostCall) (s : State) : Result :=
  if c.wellFormed then .next { s with host := { s.host with waiting := s.host.waiting ++ [c] } }
  else .refused .illFormedHostCall

/-- The per-call states of R268. -/
inductive CallPhase
  | idle | sent | awaitingFrame | complete | retrySent | failed
  deriving DecidableEq, Repr

/-- Does the running read call have attempts left (R265)? -/
def HostAgent.attemptsRemain (h : HostAgent) : Bool :=
  h.script.any fun c => match c with
    | .retry n => decide (h.attempt < n)
    | _ => false

/-- The next operation that a script starts. -/
def nextOp : List HostCtl → Option Instr
  | [] => none
  | .stmt (.op i) :: _ => some i
  | _ :: l => nextOp l

/-- The state of a call whose current attempt has not sent its command: Idle, or Retry→Sent from the second attempt on. -/
def HostAgent.unsent (h : HostAgent) : CallPhase := if h.attempt ≤ 1 then .idle else .retrySent

/-- The terminal state of a call that has ended: Complete (value returned) or Failed (error surfaced). -/
def HostAgent.ended (h : HostAgent) : CallPhase :=
  match h.results.getLast? with
  | none => .idle
  | some .success => .complete
  | some (.measurement _) => .complete
  | some (.failed _) => .failed

/-- A call past its response check: Failed on an error; after CHK_MEAS Complete with SAMPLE, else Retry→Sent while attempts
remain, else Failed; after CHK_ACK without an error ACK is set, so Complete. -/
def checkedPhase (s : State) : CallPhase :=
  if s.err then .failed
  else if s.host.script.contains .ifSample then
    if s.sample then .complete else if s.host.attemptsRemain then .retrySent else .failed
  else .complete

/-- A running START_MEASUREMENT or READ_MEASURED_VALUES: where its script stands says which operation it waits for, and the
block says how that operation ended (R268). -/
def runningPhase (s : State) : CallPhase :=
  match s.host.script with
  | [] => s.host.ended
  | .fail :: _ => .failed
  | .retry n :: _ => if s.host.attempt < n then (if s.host.attempt = 0 then .idle else .retrySent) else .failed
  | l =>
    match nextOp l with
    | some .dec => if s.busy then s.host.unsent else if s.err then .failed else .sent
    | some .chkAck => if s.err then .failed else .awaitingFrame
    | some .chkMeas => if s.err then .failed else .awaitingFrame
    | some _ => s.host.unsent
    | none => checkedPhase s

/-- The per-call state of R268, of the call that runs or ran last. It speaks of the two calls of the command protocol; with none
of them it is Idle. DEDUCED, log 22. -/
def State.callPhase (s : State) : CallPhase :=
  match s.host.call with
  | some .startMeasurement => runningPhase s
  | some (.readMeasuredValues _) => runningPhase s
  | some (.send _ _ _) => .idle
  | some .recv => .idle
  | some (.script _) => .idle
  | none => .idle

/-- Do these raw bytes stand next to each other in the list? -/
def isInfix (bs : List Byte) : List Byte → Bool
  | [] => bs.isEmpty
  | c :: cs => bs.isPrefixOf (c :: cs) || isInfix bs cs

/-- The assertion `tx? b0 b1 …`: these raw bytes appeared on the TX stream, in order (R103, log 15). -/
def State.txShows (s : State) (bs : List Byte) : Bool := isInfix bs s.txStream

end Sys2Proof.Machine
end

