-- ==== Sys2Proof/Machine/Inputs.lean ====
section
/-! DEFINITION. One input, one step (log 1), and where an operation is fetched: the host's next write of OP (30_encoding.md R95,
log 2). -/

namespace Sys2Proof.Machine

/-- What one input does. -/
def runInput (i : Input) (s : State) : Result :=
  match i with
  | .rst level => .next (sampleRst level s)
  | .host act => hostAct act s
  | .ports p => .next (blockStep p s)
  | .rx bytes => .next (receive bytes s)
  | .call c => askCall c s
  | .turn => hostTurn s

/-- A block that is out of reset and has no operation in progress: what a write of OP needs in order to be accepted (R75). -/
def idleBlock (s : State) : State :=
  { s with status := setBit s.status busyBit false, fsm := .idle, txq := [], rst := false }

/-- The next input is the host's write of this byte to OP. -/
def placeOp (v : Byte) (s : State) : State :=
  { idleBlock s with inputs := .host (.write opAddr v) :: s.inputs }

end Sys2Proof.Machine
end

