-- ==== Sys2Proof/Machine/Step.lean ====
section
/-! DEFINITION. One step, and the placing of an instruction where the next step runs it. -/

namespace Sys2Proof.Machine

/-- One step: the next input is taken and run; with no input left nothing moves (log 1). -/
def step (s : State) : Host.Outcome State Fault Refusal :=
  match s.inputs with
  | [] => .next s
  | i :: rest => runInput i { s with inputs := rest }

/-- `s` with the operation word `w` as the host's next write of OP (log 2, log 16). Every word is one byte (30_encoding.md
R90), so `nbits` says nothing more. -/
def State.withFetchWord (s : State) (_nbits w : Nat) : State := placeOp (tableByte w) s

end Sys2Proof.Machine
end

