-- ==== Sys2Proof/Safety.lean ====
section
/-! DEFINITION. What the claims call a well-behaved state, and the situations they speak of. -/

namespace Sys2Proof.Machine

/-- Reserved register bits read 0 (20_memory.md R73): CTRL[7:1], OP[7:4], STATUS[7], ERRCODE[7:5]. -/
def ReservedBitsZero (s : State) : Prop :=
  s.ctrl &&& 0xFE#8 = 0#8 ∧ s.op &&& 0xF0#8 = 0#8 ∧ s.status &&& 0x80#8 = 0#8 ∧ s.errcode &&& 0xE0#8 = 0#8

/-- The sequencer: BUSY exactly outside IDLE (10_state.md R41), bytes to emit exactly in ENC_EMIT and at most 519 of them (R40),
a half-read escape pair only in a body state of DEC (41_byte_codec.md R129). -/
def SequencerSound (s : State) : Prop :=
  (s.busy = true ↔ s.fsm ≠ .idle) ∧ (s.txq ≠ [] ↔ s.fsm = .encEmit) ∧ s.txq.length ≤ 519 ∧
    (s.esc = true → s.fsm.isBody = true)

/-- The values ERRCODE takes: the codes of 60_exceptions.md R290 that the block writes, with FPOS only for FRAMING. -/
def legalErrcodes : List Byte := [0x00#8, 0x01#8, 0x11#8, 0x02#8, 0x03#8, 0x04#8, 0x05#8, 0x07#8, 0x08#8, 0x09#8]

/-- The report of the last operation: ERR with a code and never without, DONE with ERR, BUSY without DONE, no information byte
without an error (60_exceptions.md R294, R295; 10_state.md R31). -/
def ReportSound (s : State) : Prop :=
  s.errcode ∈ legalErrcodes ∧ (s.err = true ↔ s.errcode ≠ 0#8) ∧ (s.err = true → s.done = true) ∧
    (s.busy = true → s.done = false) ∧ (s.err = false → s.errbyte = 0#8)

/-- The held packet: none while a DEC runs (70_reset_and_hazards.md R338), EMPTY exactly for a held packet of length 0 (10_state.md
R29), every payload entry of a held packet written (R28), ACK and SAMPLE only for a packet that they fit (R26). -/
def PacketSound (s : State) : Prop :=
  (s.fsm.isDec = true → s.rxValid = false) ∧
    (s.isEmpty = true ↔ s.rxValid = true ∧ s.rxLen = 0#8) ∧
    (s.rxValid = true → ∀ i, i < s.rxLen.toNat → (s.rxp i).isSome = true) ∧
    (s.ack = true → s.rxValid = true ∧ s.rxAddr = 0#8 ∧ s.rxCmd = 0#8 ∧ s.rxState = 0#8 ∧ s.rxLen = 0#8) ∧
    (s.sample = true → s.rxValid = true ∧ s.rxLen = Config.measurementLen)

/-- A running DEC: in DEC_DATA the index is below RX_LEN and the entries below it are written; past the payload all of them are
(44_frame_decoder.md R197, R198). -/
def PayloadProgress (s : State) : Prop :=
  (s.fsm = .decData → s.idx.toNat < s.rxLen.toNat ∧ ∀ i, i < s.idx.toNat → (s.rxp i).isSome = true) ∧
    (s.fsm = .decCks ∨ s.fsm = .decEof → ∀ i, i < s.rxLen.toNat → (s.rxp i).isSome = true)

/-- The invariant of the block. -/
def Inv (s : State) : Prop :=
  ReservedBitsZero s ∧ SequencerSound s ∧ ReportSound s ∧ PacketSound s ∧ PayloadProgress s ∧ s.mem.wf = true

/-- A step that does not fault and is not refused: the run goes on. -/
def Proceeds (s : State) : Prop := ∃ t, step s = .next t

/-- `k` steps, up to the first fault or refusal. -/
def runSteps : Nat → State → Result
  | 0, s => .next s
  | k + 1, s =>
    match step s with
    | .next t => runSteps k t
    | .fault f => .fault f
    | .refused r => .refused r

/-- Every TXP entry of the frame an ENC would send has been written since reset (70_reset_and_hazards.md R341). -/
def PayloadWritten (s : State) : Prop := ∀ i, i < s.txLen.toNat → (s.txp i).isSome = true

/-- The next input is the host's access `act`; `rest` are the inputs after it. -/
def HostActs (s : State) (act : HostAct) (rest : List Input) : Prop := s.inputs = .host act :: rest

/-- The next input is a block step, out of reset, against the transport levels `p`. -/
def BlockSteps (s : State) (p : Ports) (rest : List Input) : Prop := s.inputs = .ports p :: rest ∧ s.rst = false

/-- The next step offers the raw byte `r` and no read failure (20_memory.md R64); `rs` stays in the stream. -/
def OffersByte (s : State) (r : Byte) (rs : List Byte) (rest : List Input) : Prop :=
  ∃ p : Ports, BlockSteps s p rest ∧ p.rxErr = false ∧ p.rxValid = true ∧ s.rxStream = r :: rs

/-- The raw byte `r` delivers the logical byte `v` in a body state (41_byte_codec.md R123). -/
def Delivers (s : State) (r v : Byte) : Prop :=
  (s.esc = false ∧ r ≠ 0x7D#8 ∧ v = r) ∨ (s.esc = true ∧ unEsc r = some v)

/-- The end of a DEC in an error, but for `inputs` and `rxStream` (60_exceptions.md R295, 44_frame_decoder.md R203): the report, no
packet held, the sequencer idle; CTRL, OP, the TX side, the ports and the host as before. Of the RX registers and RXP, which are
unspecified, nothing is said. That host_rdata is as before is the model's choice (log 23). -/
def EndsInDecError (s t : State) (code info : Byte) : Prop :=
  t.status = (s.status &&& 0xE0#8) ||| 0x06#8 ∧ t.errcode = code ∧ t.errbyte = info ∧
    t.fsm = .idle ∧ t.esc = false ∧ t.txq = [] ∧
    t.ctrl = s.ctrl ∧ t.op = s.op ∧
    t.txAddr = s.txAddr ∧ t.txCmd = s.txCmd ∧ t.txLen = s.txLen ∧ t.txCksum = s.txCksum ∧
    (∀ a, a < rxpBase → t.mem.read a = s.mem.read a) ∧
    t.strict = s.strict ∧ t.rst = s.rst ∧ t.hostRdata = s.hostRdata ∧ t.txStream = s.txStream ∧ t.host = s.host

/-- Transport levels with a byte on offer and no error. -/
def offerPorts : Ports := { rxValid := true, rxErr := false, txReady := false, txErr := false }

/-- Transport levels that take a byte, with no error. -/
def takePorts : Ports := { rxValid := false, rxErr := false, txReady := true, txErr := false }

/-- `k` block steps against the same transport levels. -/
def portSteps (k : Nat) (p : Ports) : List Input := List.replicate k (.ports p)

end Sys2Proof.Machine
end

