-- ==== Sys2Proof/Certificates/Slice0/Obligations.lean ====
section
/-! DEFINITION. The statements for the provers. Each docstring names the rules it formalises. Wherever the next state of a statement
keeps host_rdata on a step that is no host read, that is the model's choice (log 23). -/

namespace Sys2Proof.Machine

/-- The registers of a block whose operation `i` has been accepted and has ended in its first step, without an error: the start
actions and `finish()`; `mark` holds the bits that the operation itself sets. -/
def endedOk (i : Instr) (mark : Byte) (s : State) : State :=
  { s with
    op := opcode i
    status := (s.status &&& 0x98#8) ||| (0x02#8 ||| mark)
    errcode := 0x00#8
    errbyte := 0x00#8
    fsm := .idle
    txq := [] }

/-- The same for an operation that ends in its first step with the error `code` and the information byte `info`. -/
def endedWith (i : Instr) (code info : Byte) (s : State) : State :=
  { s with
    op := opcode i
    status := (s.status &&& 0x98#8) ||| 0x06#8
    errcode := code
    errbyte := info
    fsm := .idle
    esc := false
    txq := [] }

/-- A block that has just started to send `frame`: the start actions, BUSY, and the raw bytes to emit. -/
def sending (i : Instr) (k : Byte) (frame : List Byte) (s : State) : State :=
  { s with
    op := opcode i
    status := (s.status &&& 0x98#8) ||| 0x01#8
    errcode := 0x00#8
    errbyte := 0x00#8
    txCksum := k
    txq := frame
    fsm := .encEmit }

/-- What ENC_START leaves (43_frame_encoder.md R163): the fixed fields and the fixed frame. -/
def startSent (s : State) : State :=
  sending .encStart 0xF9#8 [0x7E#8, 0x00#8, 0x00#8, 0x02#8, 0x01#8, 0x03#8, 0xF9#8, 0x7E#8]
    { s with
      txAddr := 0x00#8
      txCmd := 0x00#8
      txLen := 0x02#8
      mem := (s.mem.write txpBase 0x01#8).write (txpBase + 1) 0x03#8 }

/-- What ENC_READ leaves (43_frame_encoder.md R164). -/
def readSent (s : State) : State :=
  sending .encRead 0xFC#8 [0x7E#8, 0x00#8, 0x03#8, 0x00#8, 0xFC#8, 0x7E#8]
    { s with txAddr := 0x00#8, txCmd := 0x03#8, txLen := 0x00#8 }

/-- The state after a step that took one raw byte and the input it came with. -/
def took (rs : List Byte) (rest : List Input) (s : State) : State := { s with rxStream := rs, inputs := rest }

/-- The reserved operations (30_encoding.md R93). -/
def reservedOps : List Instr :=
  [.reserved7, .reserved8, .reserved9, .reservedA, .reservedB, .reservedC, .reservedD, .reservedE, .reservedF]

end Sys2Proof.Machine

open Sys2Proof Sys2Proof.Machine

/-- Every byte written to OP names exactly one operation, by its low four bits (R91). -/
def Obligations.OperationDecodingIsTotalOnLowNibble : Prop :=
  ∀ v : Byte, ∃ i : Instr, i.format = .op ∧ decode .op [v] = .ok i [] ∧ opcode i = v &&& 0x0F#8 ∧
    ∀ j : Instr, j.format = .op → opcode j = v &&& 0x0F#8 → j = i

/-- A few words decode to the instructions they stand for, and one CMD byte is rejected (30_encoding.md R92, R101;
95_test_vectors.md V-ERR-1, V-ERR-2). The codes are the spec's; that CMD byte 0x55 is rejected by name is the model's
choice (log 8: R101 says only that the source gives other bytes no meaning), and so is reading a table word at the OP
level (log 7). -/
def Obligations.WrittenOutWordsDecode : Prop :=
  decode .op [0x01#8] = .ok .enc [] ∧ decode .op [0x02#8] = .ok .dec [] ∧ decode .op [0x05#8] = .ok .chkAck [] ∧
    decode .op [0xF3#8] = .ok .encStart [] ∧ decodeTableWord 8 0x07 = some .reserved7 ∧
    decode .wireCmd [0x00#8] = .ok .wireStartMeasurement [] ∧
    decode .wireCmd [0x03#8] = .ok .wireReadMeasuredValues [] ∧
    decode .wireCmd [0x55#8] = .rejected (.unknownWireCommand 0x55#8)

/-- The two wire commands have the published raw frames, and those frames name them (30_encoding.md R101; 42_checksum.md
R146; 95_test_vectors.md S-2, S-3). The bytes are the spec's; decodeWireFrame, which reads them back, is the model's
own reader (log 20). -/
def Obligations.WireCommandFramesAreThePublishedBytes : Prop :=
  encodeWireFrame .wireStartMeasurement = [0x7E#8, 0x00#8, 0x00#8, 0x02#8, 0x01#8, 0x03#8, 0xF9#8, 0x7E#8] ∧
    encodeWireFrame .wireReadMeasuredValues = [0x7E#8, 0x00#8, 0x03#8, 0x00#8, 0xFC#8, 0x7E#8] ∧
    decodeWireFrame [0x7E#8, 0x00#8, 0x00#8, 0x02#8, 0x01#8, 0x03#8, 0xF9#8, 0x7E#8] = some .wireStartMeasurement ∧
    decodeWireFrame [0x7E#8, 0x00#8, 0x03#8, 0x00#8, 0xFC#8, 0x7E#8] = some .wireReadMeasuredValues

/-- The model's own reader of command frames reads every command frame back as the address, command and payload it was
built from (30_encoding.md R96; 43_frame_encoder.md R165; 41_byte_codec.md R127; 42_checksum.md R141). The spec
describes only the sending side: parseCommandFrame, with the checksum verified and nothing left over, is the model's
choice (log 20). -/
def Obligations.CommandFramesParseBack : Prop :=
  ∀ (a c : Byte) (p : List Byte), p.length ≤ 255 → parseCommandFrame (encodeFrame a c p) = some (a, c, p)

/-- Unstuffing StuffSeq(s) gives exactly s and takes exactly its raw bytes (41_byte_codec.md R127; 41_byte_codec.md R120,
R121, R122, R123). -/
def Obligations.StuffingRoundTrips : Prop :=
  ∀ s rest : List Byte, unstuffN s.length (stuffSeq s ++ rest) = .got s (stuffSeq s).length rest

/-- A stuffed body holds no delimiter, and an escape marker only as the first byte of a pair (41_byte_codec.md R128;
41_byte_codec.md R121, R122). -/
def Obligations.StuffedBytesAvoidReservedValues : Prop :=
  (∀ s : List Byte, ∀ r ∈ stuffSeq s, r ≠ 0x7E#8 ∧ r ≠ 0x11#8 ∧ r ≠ 0x13#8) ∧
    (∀ s xs ys : List Byte, stuffSeq s = xs ++ 0x7D#8 :: ys → ∃ r zs v, ys = r :: zs ∧ unEsc r = some v) ∧
    (∀ body : List Byte, ∃ m : List Byte, frameOf body = 0x7E#8 :: (m ++ [0x7E#8]) ∧ ∀ r ∈ m, r ≠ 0x7E#8)

/-- Raw frame lengths lie in the bounds of the LEN field (30_encoding.md R98; 44_frame_decoder.md R208; 10_state.md R40). -/
def Obligations.FrameLengthsStayInBounds : Prop :=
  ∀ (a c st : Byte) (p : List Byte), p.length ≤ 255 →
    (6 + p.length ≤ (encodeFrame a c p).length ∧ (encodeFrame a c p).length ≤ 10 + 2 * p.length ∧
      (encodeFrame a c p).length ≤ 519) ∧
    (7 + p.length ≤ (responseFrame a c st p).length ∧ (responseFrame a c st p).length ≤ 12 + 2 * p.length ∧
      (responseFrame a c st p).length ≤ 521)

/-- The byte values of a sequence and its checksum sum to 0xFF modulo 256; the checksum of zeros is 0xFF; order does not
matter (42_checksum.md R147; 42_checksum.md R140). -/
def Obligations.ChecksumComplementsTheSum : Prop :=
  (∀ s : List Byte, ((s.map BitVec.toNat).sum + (cks s).toNat) % 256 = 255) ∧
    (∀ n : Nat, cks (List.replicate n 0x00#8) = 0xFF#8) ∧ (∀ s t : List Byte, cks (s ++ t) = cks (t ++ s))

/-- A step whose input is a write of OP is exec of the decoded operation (30_encoding.md R95; 20_memory.md R61, R71;
30_encoding.md R101 (wire commands: the model's choice, log 7)). -/
def Obligations.StepRunsTheWrittenOperation : Prop :=
  (∀ (s : State) (v : Byte) (i : Instr) (rest : List Input), HostActs s (.write 0x001#10 v) rest →
      decode .op [v] = .ok i [] → step s = exec i { s with inputs := rest }) ∧
    (∀ (s : State) (c : Byte) (i : Instr) (rest : List Input), HostActs s (.command c) rest →
      decode .wireCmd [c] = .ok i [] → step s = exec i { s with inputs := rest }) ∧
    (∀ (s : State) (nbits w : Nat) (i : Instr), decodeTableWord (nbits + 1) w = some i →
      step (s.withFetchWord (nbits + 1) w) = exec i (idleBlock s))

/-- A host turn at `op MNEMONIC` runs that operation, and `wr` of another register stores (30_encoding.md R103;
46_host_operations.md R262, R272 (one statement a turn: the model's choice, log 9)). -/
def Obligations.HostTurnRunsTheScriptedOperation : Prop :=
  (∀ (s : State) (i : Instr) (l : List HostCtl) (rest : List Input), s.inputs = .turn :: rest →
      s.host.script = .stmt (.op i) :: l → i.format = .op →
      step s = exec i { s with inputs := rest, host := { s.host with script := l } }) ∧
    (∀ (s : State) (n : RegName) (v : Byte) (l : List HostCtl) (rest : List Input), s.inputs = .turn :: rest →
      s.host.script = .stmt (.wr n v) :: l → regAddr n ≠ 0x001#10 →
      step s = .next (hostStore (regAddr n) v { s with inputs := rest, host := { s.host with script := l } }))

/-- NOP ends in its first step: DONE, no error, ERR, ACK and SAMPLE cleared, nothing else changed (R160). -/
def Obligations.NopEndsAtOnceWithoutError : Prop :=
  ∀ s : State, s.accepting = true → exec .nop s = .next (endedOk .nop 0x00#8 s)

/-- ENC with a written payload starts sending the frame of the TX registers (43_frame_encoder.md R161, R165;
42_checksum.md R141, R144; 30_encoding.md R94, R95). -/
def Obligations.EncQueuesTheHeldFrame : Prop :=
  ∀ s : State, s.accepting = true → PayloadWritten s →
    ∃ p : List Byte, p.length = s.txLen.toNat ∧ (∀ i, i < p.length → s.txp i = p[i]?) ∧
      exec .enc s = .next (sending .enc (cks (s.txAddr :: s.txCmd :: s.txLen :: p))
        (0x7E#8 :: (stuffSeq (s.txAddr :: s.txCmd :: s.txLen :: (p ++ [cks (s.txAddr :: s.txCmd :: s.txLen :: p)]))
          ++ [0x7E#8])) s)

/-- An ENC that would send a TXP entry not written since reset is a model fault (R341). -/
def Obligations.EncOfUnwrittenPayloadFaults : Prop :=
  ∀ s : State, s.accepting = true → ¬ PayloadWritten s → exec .enc s = .fault .unwrittenPayload

/-- ENC_START loads the start-measurement packet and starts sending 7E 00 00 02 01 03 F9 7E (43_frame_encoder.md R163;
95_test_vectors.md V-ENC-10). -/
def Obligations.EncStartLoadsAndQueuesTheFixedFrame : Prop :=
  ∀ s : State, s.accepting = true → exec .encStart s = .next (startSent s)

/-- ENC_READ loads the read command and starts sending 7E 00 03 00 FC 7E (43_frame_encoder.md R164; 95_test_vectors.md
V-ENC-11). -/
def Obligations.EncReadLoadsAndQueuesTheFixedFrame : Prop :=
  ∀ s : State, s.accepting = true → exec .encRead s = .next (readSent s)

/-- A wire command starts sending its published frame by the block operation R101 names (30_encoding.md R101 (that a wire
command's meaning is its block op: the model's reading, log 7)). -/
def Obligations.WireCommandsAreSentByTheirBlockOperation : Prop :=
  ∀ s : State, s.accepting = true →
    exec .wireStartMeasurement s = .next (startSent s) ∧ exec .wireReadMeasuredValues s = .next (readSent s)

/-- DEC's start step samples STRICT, drops the held packet and waits for the leading delimiter (R191). -/
def Obligations.DecStartsWaitingForTheDelimiter : Prop :=
  (∀ s : State, s.accepting = true →
    exec .dec s = .next { s with
      op := 0x02#8
      status := (s.status &&& 0x80#8) ||| 0x01#8
      errcode := 0x00#8
      errbyte := 0x00#8
      strict := bit s.ctrl 0
      esc := false
      idx := 0#8
      sum := 0#8
      ckraw := 0#8
      fsm := .decSof }) ∧
    (∀ (s : State) (v : Byte) (rest : List Input), s.busy = true → HostActs s (.write 0x000#10 v) rest →
      step s = .next { s with inputs := rest })

/-- Each reserved code is accepted and ends at once with ILLEGAL_OP (R93). -/
def Obligations.ReservedCodesEndWithIllegalOp : Prop :=
  ∀ i ∈ reservedOps, ∀ s : State, s.accepting = true →
    exec i s = .next (endedWith i 0x08#8 0x00#8 s) ∧
      (SequencerSound s → endedWith i 0x08#8 0x00#8 s =
        { s with op := opcode i, status := (s.status &&& 0x98#8) ||| 0x06#8, errcode := 0x08#8, errbyte := 0x00#8 })

/-- CHK_ACK: NO_PACKET, ACK, or UNEXPECTED_RESPONSE (R230). -/
def Obligations.ChkAckDecidesTheAcknowledgement : Prop :=
  ∀ s : State, s.accepting = true →
    (s.rxValid = false → exec .chkAck s = .next (endedWith .chkAck 0x09#8 0x00#8 s)) ∧
    (s.rxValid = true →
      (s.rxAddr = 0x00#8 ∧ s.rxCmd = 0x00#8 ∧ s.rxState = 0x00#8 ∧ s.rxLen = 0x00#8 ∧
        (bit s.ctrl 0 = false → s.rxCksum = 0x00#8)) →
      exec .chkAck s = .next (endedOk .chkAck 0x20#8 s)) ∧
    (s.rxValid = true →
      ¬ (s.rxAddr = 0x00#8 ∧ s.rxCmd = 0x00#8 ∧ s.rxState = 0x00#8 ∧ s.rxLen = 0x00#8 ∧
        (bit s.ctrl 0 = false → s.rxCksum = 0x00#8)) →
      exec .chkAck s = .next (endedWith .chkAck 0x04#8 0x00#8 s))

/-- CHK_MEAS: NO_PACKET, no sample, SAMPLE, or PAYLOAD_SIZE (R233). -/
def Obligations.ChkMeasClassifiesThePayload : Prop :=
  ∀ s : State, s.accepting = true →
    (s.rxValid = false → exec .chkMeas s = .next (endedWith .chkMeas 0x09#8 0x00#8 s)) ∧
    (s.rxValid = true → s.rxLen = 0#8 → exec .chkMeas s = .next (endedOk .chkMeas 0x00#8 s)) ∧
    (s.rxValid = true → s.rxLen = 40#8 → exec .chkMeas s = .next (endedOk .chkMeas 0x40#8 s)) ∧
    (s.rxValid = true → s.rxLen ≠ 0#8 → s.rxLen ≠ 40#8 →
      exec .chkMeas s = .next (endedWith .chkMeas 0x05#8 s.rxLen s))

/-- CHK_ACK and CHK_MEAS are pure checks (R235). -/
def Obligations.ChecksChangeOnlyTheReport : Prop :=
  ∀ i ∈ [Instr.chkAck, Instr.chkMeas], ∀ s : State, s.accepting = true → SequencerSound s →
    ∃ t : State, exec i s = .next t ∧
      t = { s with op := opcode i, status := t.status, errcode := t.errcode, errbyte := t.errbyte } ∧
      t.busy = s.busy ∧ t.rxValid = s.rxValid ∧ t.isEmpty = s.isEmpty ∧ bit t.status 7 = bit s.status 7 ∧
      t.accepting = true

/-- ENC, ENC_START and ENC_READ do the same for both values of CTRL.STRICT (R166). -/
def Obligations.EncoderIgnoresTheDecoderMode : Prop :=
  (∀ i ∈ [Instr.enc, Instr.encStart, Instr.encRead], ∀ (s : State) (v : Byte),
    exec i { s with ctrl := v } =
      match exec i s with
      | .next t => .next { t with ctrl := v }
      | .fault f => .fault f
      | .refused r => .refused r) ∧
    (∀ (s : State) (v : Byte) (p : Ports), s.fsm = .encEmit →
      blockStep p { s with ctrl := v } = { blockStep p s with ctrl := v })

/-- No instruction's start step stores to memory but that of ENC_START and of the wire command 0x00, which store TXP[0]
and TXP[1] (10_state.md R42; 43_frame_encoder.md R163). That the wire command 0x00 has the effect of ENC_START is the
model's reading of R101 (log 7). -/
def Obligations.ExecKeepsMemoryButForEncStart : Prop :=
  ∀ (i : Instr) (s t : State), exec i s = .next t →
    (∀ a : Nat, (i = .encStart ∨ i = .wireStartMeasurement → a ≠ 0x100 ∧ a ≠ 0x101) → t.mem.read a = s.mem.read a) ∧
    ((i = .encStart ∨ i = .wireStartMeasurement) → s.accepting = true →
      t.mem.read 0x100 = some 0x01#8 ∧ t.mem.read 0x101 = some 0x03#8)

/-- What an operation's start step leaves unchanged (10_state.md R42; 10_state.md R22). That a wire command has the effect
of its block operation is the model's reading of R101 (log 7), and that host_rdata is unchanged on a step that is no
read is the model's choice (log 23). -/
def Obligations.ExecKeepsRegistersItDoesNotName : Prop :=
  ∀ (i : Instr) (s t : State), exec i s = .next t →
    t.ctrl = s.ctrl ∧ t.rxAddr = s.rxAddr ∧ t.rxCmd = s.rxCmd ∧ t.rxState = s.rxState ∧ t.rxLen = s.rxLen ∧
    t.rxCksum = s.rxCksum ∧ t.rxCksumCalc = s.rxCksumCalc ∧ t.rst = s.rst ∧ t.hostRdata = s.hostRdata ∧
    t.rxStream = s.rxStream ∧ t.txStream = s.txStream ∧ t.host = s.host ∧ t.inputs = s.inputs ∧
    bit t.status 7 = bit s.status 7 ∧
    ((i = .encStart ∨ i = .encRead ∨ i = .wireStartMeasurement ∨ i = .wireReadMeasuredValues) ∨
      (t.txAddr = s.txAddr ∧ t.txCmd = s.txCmd ∧ t.txLen = s.txLen)) ∧
    ((i = .enc ∨ i = .encStart ∨ i = .encRead ∨ i = .wireStartMeasurement ∨ i = .wireReadMeasuredValues) ∨
      t.txCksum = s.txCksum) ∧
    (i = .dec ∨ (t.strict = s.strict ∧ t.idx = s.idx ∧ t.sum = s.sum ∧ t.ckraw = s.ckraw ∧
      t.rxValid = s.rxValid ∧ t.isEmpty = s.isEmpty))

/-- Every host write while BUSY is ignored, and reads are permitted (R75). -/
def Obligations.BusyBlockIgnoresWrites : Prop :=
  ∀ (s : State) (a : Addr) (rest : List Input), s.busy = true →
    (∀ v : Byte, HostActs s (.write a v) rest → step s = .next { s with inputs := rest }) ∧
    (HostActs s (.read a) rest → ∃ t : State, step s = .next t)

/-- A host write to CTRL, TX_ADDR, TX_CMD, TX_LEN or TXP[i] stores there and nowhere else (10_state.md R22, R23;
20_memory.md R62, R73). -/
def Obligations.WritableRegistersTakeTheWrittenByte : Prop :=
  ∀ (s : State) (v : Byte) (rest : List Input), s.accepting = true →
    (HostActs s (.write 0x000#10 v) rest → step s = .next { s with ctrl := v &&& 0x01#8, inputs := rest }) ∧
    (HostActs s (.write 0x005#10 v) rest → step s = .next { s with txAddr := v, inputs := rest }) ∧
    (HostActs s (.write 0x006#10 v) rest → step s = .next { s with txCmd := v, inputs := rest }) ∧
    (HostActs s (.write 0x007#10 v) rest → step s = .next { s with txLen := v, inputs := rest }) ∧
    (∀ i : Nat, i < 256 → HostActs s (.write (BitVec.ofNat 10 (0x100 + i)) v) rest →
      ∃ t : State, step s = .next t ∧ t = { s with mem := t.mem, inputs := rest } ∧ t.txp i = some v ∧
        (∀ j, j ≠ i → t.txp j = s.txp j) ∧ (∀ j, t.rxp j = s.rxp j))

/-- Writes to unmapped and read-only addresses are ignored, and unmapped addresses read 0x00 (R72; R74). -/
def Obligations.UnmappedAndReadOnlyAddressesIgnoreWrites : Prop :=
  ∀ (s : State) (a : Addr) (rest : List Input),
    (∀ v : Byte, (0x002 ≤ a.toNat ∧ a.toNat ≤ 0x004) ∨ (0x008 ≤ a.toNat ∧ a.toNat ≤ 0x0FF) ∨ 0x200 ≤ a.toNat →
      HostActs s (.write a v) rest → step s = .next { s with inputs := rest }) ∧
    ((0x00F ≤ a.toNat ∧ a.toNat ≤ 0x0FF) ∨ 0x300 ≤ a.toNat →
      HostActs s (.read a) rest → step s = .next { s with hostRdata := 0x00#8, inputs := rest })

/-- A host read returns the register at its address and changes no state of the block (20_memory.md R61, R62, R71, R75;
10_state.md R22; 70_reset_and_hazards.md R338). That the registers stand still while rst = 1, and so what a read
returns then, is the model's choice (log 6); and so is that an RX register, unspecified after a DEC that ended with an
error (R203, 93 I3), holds one value that reads return until the next DEC (log 5). -/
def Obligations.ReadsReturnTheNamedRegister : Prop :=
  (∀ (s : State) (a : Addr) (rest : List Input), HostActs s (.read a) rest →
    ∃ t : State, step s = .next t ∧ t = { s with hostRdata := t.hostRdata, free := t.free, inputs := rest }) ∧
  (∀ (s : State) (n : RegName) (rest : List Input), n.wellFormed = true → HostActs s (.read (regAddr n)) rest →
    ∃ t : State, step s = .next t ∧
      match n with
      | .ctrl => t.hostRdata = s.ctrl
      | .op => t.hostRdata = s.op
      | .status => t.hostRdata = s.status
      | .errcode => t.hostRdata = s.errcode
      | .errbyte => t.hostRdata = s.errbyte
      | .txAddr => t.hostRdata = s.txAddr
      | .txCmd => t.hostRdata = s.txCmd
      | .txLen => t.hostRdata = s.txLen
      | .txCksum => t.hostRdata = s.txCksum
      | .rxAddr => s.fsm.isDec = false → t.hostRdata = s.rxAddr
      | .rxCmd => s.fsm.isDec = false → t.hostRdata = s.rxCmd
      | .rxState => s.fsm.isDec = false → t.hostRdata = s.rxState
      | .rxLen => s.fsm.isDec = false → t.hostRdata = s.rxLen
      | .rxCksum => s.fsm.isDec = false → t.hostRdata = s.rxCksum
      | .rxCksumCalc => s.fsm.isDec = false → t.hostRdata = s.rxCksumCalc
      | .txp i => ∀ v, s.txp i = some v → t.hostRdata = v
      | .rxp i => s.fsm.isDec = false → ∀ v, s.rxp i = some v → t.hostRdata = v)

/-- DEC_SOF takes a raw 0x7E as the leading delimiter and fails FRAMING(start) at any other byte (44_frame_decoder.md
R192; 60_exceptions.md R291, R295). -/
def Obligations.LeadingDelimiterOpensTheFrame : Prop :=
  ∀ (s : State) (r : Byte) (rs : List Byte) (rest : List Input), s.fsm = .decSof → OffersByte s r rs rest →
    (r = 0x7E#8 → step s = .next (took rs rest { s with sum := 0#8, fsm := .decAddr })) ∧
    (r ≠ 0x7E#8 → ∃ t : State, step s = .next t ∧ t.rxStream = rs ∧ t.inputs = rest ∧ EndsInDecError s t 0x01#8 r)

/-- In a body state a raw 0x7D waits for its second byte, and a byte outside the table ends the DEC with STUFFING
(41_byte_codec.md R123, R126; 60_exceptions.md R292). -/
def Obligations.EscapePairsAreReadInTwoSteps : Prop :=
  ∀ (s : State) (r : Byte) (rs : List Byte) (rest : List Input), s.fsm.isBody = true → OffersByte s r rs rest →
    (s.esc = false → r = 0x7D#8 → step s = .next (took rs rest { s with esc := true })) ∧
    (s.esc = true → r ≠ 0x5E#8 → r ≠ 0x31#8 → r ≠ 0x33#8 → r ≠ 0x5D#8 →
      ∃ t : State, step s = .next t ∧ t.rxStream = rs ∧ t.inputs = rest ∧ EndsInDecError s t 0x02#8 r)

/-- The address, command and length bytes go to their registers, whatever their values (R194; R195; R197). -/
def Obligations.HeaderBytesAreStored : Prop :=
  ∀ (s : State) (r v : Byte) (rs : List Byte) (rest : List Input), OffersByte s r rs rest → Delivers s r v →
    (s.fsm = .decAddr →
      step s = .next (took rs rest { s with esc := false, rxAddr := v, sum := s.sum + v, fsm := .decCmd })) ∧
    (s.fsm = .decCmd →
      step s = .next (took rs rest { s with esc := false, rxCmd := v, sum := s.sum + v, fsm := .decState })) ∧
    (s.fsm = .decLen →
      step s = .next (took rs rest { s with
        esc := false, rxLen := v, sum := s.sum + v, idx := 0#8, fsm := if v = 0#8 then .decCks else .decData }))

/-- The state byte is stored in STRICT mode; in REFERENCE mode the command byte is; both sum the byte read
(44_frame_decoder.md R196, R205). -/
def Obligations.StateByteIsStoredOrAliased : Prop :=
  ∀ (s : State) (r v : Byte) (rs : List Byte) (rest : List Input), OffersByte s r rs rest → Delivers s r v →
    s.fsm = .decState →
    (s.strict = true →
      step s = .next (took rs rest { s with esc := false, rxState := v, sum := s.sum + v, fsm := .decLen })) ∧
    (s.strict = false →
      step s = .next (took rs rest { s with esc := false, rxState := s.rxCmd, sum := s.sum + v, fsm := .decLen }))

/-- Each payload byte goes to RXP[h.idx], and the RX_LEN-th ends the payload (R198). -/
def Obligations.PayloadBytesFillTheBuffer : Prop :=
  (∀ (s : State) (r v : Byte) (rs : List Byte) (rest : List Input), OffersByte s r rs rest → Delivers s r v →
    s.fsm = .decData →
    ∃ t : State, step s = .next t ∧
      t = took rs rest { s with
        mem := t.mem, esc := false, sum := s.sum + v, idx := s.idx + 1#8,
        fsm := if s.idx + 1#8 = s.rxLen then .decCks else .decData } ∧
      t.rxp s.idx.toNat = some v ∧ (∀ a, a ≠ 0x200 + s.idx.toNat → t.mem.read a = s.mem.read a)) ∧
    (∀ s : State, s.esc = false → Delivers s 0x7E#8 0x7E#8)

/-- The checksum byte is kept in h.ckraw; RX_CKSUM_CALC is the complemented sum in both modes (R199). -/
def Obligations.ChecksumByteIsKeptAndComputed : Prop :=
  ∀ (s : State) (r v : Byte) (rs : List Byte) (rest : List Input), OffersByte s r rs rest → Delivers s r v →
    s.fsm = .decCks →
    (s.strict = true → step s = .next (took rs rest { s with
      esc := false, ckraw := v, rxCksumCalc := ~~~s.sum, rxCksum := v, fsm := .decEof })) ∧
    (s.strict = false → step s = .next (took rs rest { s with
      esc := false, ckraw := v, rxCksumCalc := ~~~s.sum, rxCksum := s.rxCmd, fsm := .decEof }))

/-- DEC_EOF: FRAMING(stop), then the STRICT checksum, then success (R200). -/
def Obligations.TrailingDelimiterEndsTheFrame : Prop :=
  ∀ (s : State) (r : Byte) (rs : List Byte) (rest : List Input), s.fsm = .decEof → OffersByte s r rs rest →
    (r ≠ 0x7E#8 → ∃ t : State, step s = .next t ∧ t.rxStream = rs ∧ t.inputs = rest ∧ EndsInDecError s t 0x11#8 r) ∧
    (r = 0x7E#8 → s.strict = true → s.ckraw ≠ s.rxCksumCalc →
      ∃ t : State, step s = .next t ∧ t.rxStream = rs ∧ t.inputs = rest ∧ EndsInDecError s t 0x03#8 s.ckraw) ∧
    (r = 0x7E#8 → (s.strict = true → s.ckraw = s.rxCksumCalc) →
      step s = .next (took rs rest { s with
        status := (s.status &&& 0xE4#8) ||| (if s.rxLen = 0#8 then 0x1A#8 else 0x0A#8), fsm := .idle, txq := [] }))

/-- A running DEC holds while no byte is offered, and a read failure ends it with TRANSPORT before any byte (20_memory.md
R64; 44_frame_decoder.md R207; 60_exceptions.md R299, R302; 70_reset_and_hazards.md R342). -/
def Obligations.DecHoldsOrEndsWithTransport : Prop :=
  ∀ (s : State) (p : Ports) (rest : List Input), s.fsm.isDec = true → BlockSteps s p rest →
    (p.rxErr = true → ∃ t : State, step s = .next t ∧ t.rxStream = s.rxStream ∧ t.inputs = rest ∧
      EndsInDecError s t 0x07#8 0x00#8) ∧
    (p.rxErr = false → (p.rxValid = false ∨ s.rxStream = []) → step s = .next { s with inputs := rest })

/-- ENC_EMIT hands over the first byte of h.txq, holds, or ends with TRANSPORT (R65). -/
def Obligations.EncEmitsOneByteAStep : Prop :=
  ∀ (s : State) (p : Ports) (rest : List Input) (b : Byte) (q : List Byte),
    s.fsm = .encEmit → s.txq = b :: q → BlockSteps s p rest →
    (p.txErr = true → step s = .next { s with
      inputs := rest, status := (s.status &&& 0xF8#8) ||| 0x06#8, errcode := 0x07#8, errbyte := 0x00#8,
      fsm := .idle, esc := false, txq := [] }) ∧
    (p.txErr = false → p.txReady = true → q ≠ [] →
      step s = .next { s with inputs := rest, txStream := s.txStream ++ [b], txq := q }) ∧
    (p.txErr = false → p.txReady = true → q = [] →
      step s = .next { s with
        inputs := rest, txStream := s.txStream ++ [b], txq := [], fsm := .idle,
        status := (s.status &&& 0xFC#8) ||| 0x02#8 }) ∧
    (p.txErr = false → p.txReady = false → step s = .next { s with inputs := rest })

/-- An ENC against a willing transport puts exactly its frame on the TX stream, in one step a raw byte
(43_frame_encoder.md R161, R162, R165; 70_reset_and_hazards.md R343). -/
def Obligations.EncSendsItsWholeFrame : Prop :=
  ∀ (s : State) (p : List Byte) (v : Byte) (rest : List Input), s.accepting = true → s.txPayload = some p →
    v &&& 0x0F#8 = 0x01#8 →
    s.inputs = .host (.write 0x001#10 v) :: (portSteps (encodeFrame s.txAddr s.txCmd p).length takePorts ++ rest) →
    runSteps ((encodeFrame s.txAddr s.txCmd p).length + 1) s =
      .next { s with
        op := 0x01#8, status := (s.status &&& 0x98#8) ||| 0x02#8, errcode := 0x00#8, errbyte := 0x00#8,
        txCksum := cks (commandBody s.txAddr s.txCmd p),
        txStream := s.txStream ++ encodeFrame s.txAddr s.txCmd p,
        fsm := .idle, txq := [], inputs := rest }

/-- DEC decodes every correctly built response frame, in both modes, into exactly its fields (43_frame_encoder.md R167;
44_frame_decoder.md R204, R205; 41_byte_codec.md R129). -/
def Obligations.CorrectResponseFramesAreDecoded : Prop :=
  ∀ (a c st : Byte) (p : List Byte) (s : State) (rs : List Byte) (rest : List Input), p.length ≤ 255 →
    s.accepting = true → s.rxStream = responseFrame a c st p ++ rs →
    s.inputs = .host (.write 0x001#10 0x02#8) :: (portSteps (responseFrame a c st p).length offerPorts ++ rest) →
    ∃ t : State, runSteps ((responseFrame a c st p).length + 1) s = .next t ∧
      t.rxAddr = a ∧ t.rxCmd = c ∧ t.rxLen = BitVec.ofNat 8 p.length ∧
      (∀ i, i < p.length → t.rxp i = p[i]?) ∧ (∀ i, p.length ≤ i → t.rxp i = s.rxp i) ∧
      t.rxCksumCalc = cks (responseBody a c st p) ∧
      t.rxState = (if s.ctrlStrict then st else c) ∧
      t.rxCksum = (if s.ctrlStrict then cks (responseBody a c st p) else c) ∧
      t.status = (s.status &&& 0x80#8) ||| (if p = [] then 0x1A#8 else 0x0A#8) ∧
      t.errcode = 0x00#8 ∧ t.errbyte = 0x00#8 ∧ t.fsm = .idle ∧
      t.rxStream = rs ∧ t.inputs = rest ∧ t.txStream = s.txStream ∧ t.ctrl = s.ctrl

/-- The byte-by-byte DEC gives what DecodeFrame gives, on every raw stream (44_frame_decoder.md R201, R202, R207;
60_exceptions.md R302). -/
def Obligations.DecRunsAgreeWithDecodeFrame : Prop :=
  ∀ (s : State) (n : Nat) (rest : List Input), s.accepting = true →
    s.inputs = .host (.write 0x001#10 0x02#8) :: (portSteps n offerPorts ++ rest) →
    match decodeFrame s.ctrlStrict s.rxStream with
    | .packet k m => n = m →
        ∃ t : State, runSteps (n + 1) s = .next t ∧
          t.rxValid = true ∧ t.busy = false ∧ t.done = true ∧ t.err = false ∧ t.errcode = 0x00#8 ∧
          t.rxAddr = k.addr ∧ t.rxCmd = k.cmd ∧ t.rxState = k.state ∧ t.rxLen = k.len ∧ t.rxCksum = k.cksum ∧
          t.rxCksumCalc = k.cksumCalc ∧ t.rxPayload = some k.payload ∧
          t.rxStream = s.rxStream.drop n ∧ t.inputs = rest
    | .framing stop r m => n = m →
        ∃ t : State, runSteps (n + 1) s = .next t ∧ t.rxValid = false ∧ t.busy = false ∧ t.done = true ∧
          t.err = true ∧ t.errcode = (if stop then 0x11#8 else 0x01#8) ∧ t.errbyte = r ∧
          t.rxStream = s.rxStream.drop n ∧ t.inputs = rest
    | .stuffing r m => n = m →
        ∃ t : State, runSteps (n + 1) s = .next t ∧ t.rxValid = false ∧ t.busy = false ∧ t.done = true ∧
          t.err = true ∧ t.errcode = 0x02#8 ∧ t.errbyte = r ∧ t.rxStream = s.rxStream.drop n ∧ t.inputs = rest
    | .checksum k m => n = m →
        ∃ t : State, runSteps (n + 1) s = .next t ∧ t.rxValid = false ∧ t.busy = false ∧ t.done = true ∧
          t.err = true ∧ t.errcode = 0x03#8 ∧ t.errbyte = k ∧ t.rxStream = s.rxStream.drop n ∧ t.inputs = rest
    | .holds => s.rxStream.length ≤ n →
        ∃ t : State, runSteps (n + 1) s = .next t ∧ t.rxValid = false ∧ t.busy = true ∧
          t.fsm.isDec = true ∧ t.rxStream = [] ∧ t.inputs = rest

/-- The state after reset meets the invariant (70_reset_and_hazards.md R331; 10_state.md R27, R29, R41). -/
def Obligations.ResetStateMeetsTheInvariant : Prop :=
  Inv Sys2Proof.core.reset

/-- Every step, from any state that meets the invariant, gives a state that meets it (20_memory.md R73; 10_state.md R26,
R27, R28, R29, R30, R40, R41; 60_exceptions.md R290, R294, R295; 44_frame_decoder.md R197, R198, R203;
41_byte_codec.md R129). -/
def Obligations.EveryStepKeepsTheInvariant : Prop :=
  ∀ s t : State, Inv s → step s = .next t → Inv t

/-- The reset values of every register and hidden field (R331). -/
def Obligations.ResetLeavesTheSpecsValues : Prop :=
  Sys2Proof.core.reset = State.reset ∧
    State.reset.ctrl = 0x01#8 ∧ State.reset.op = 0x00#8 ∧ State.reset.status = 0x00#8 ∧
    State.reset.errcode = 0x00#8 ∧ State.reset.errbyte = 0x00#8 ∧
    State.reset.txAddr = 0x00#8 ∧ State.reset.txCmd = 0x00#8 ∧ State.reset.txLen = 0x00#8 ∧ State.reset.txCksum = 0x00#8 ∧
    State.reset.rxAddr = 0x00#8 ∧ State.reset.rxCmd = 0x00#8 ∧ State.reset.rxState = 0x00#8 ∧ State.reset.rxLen = 0x00#8 ∧
    State.reset.rxCksum = 0x00#8 ∧ State.reset.rxCksumCalc = 0x00#8 ∧
    (∀ i, State.reset.txp i = none ∧ State.reset.rxp i = none) ∧
    State.reset.fsm = .idle ∧ State.reset.esc = false ∧ State.reset.idx = 0#8 ∧ State.reset.sum = 0#8 ∧
    State.reset.ckraw = 0#8 ∧ State.reset.strict = true ∧ State.reset.txq = []

/-- While rst = 1 the block does nothing; when it falls the block is as after reset and the transport is untouched
(70_reset_and_hazards.md R330, R331, R332, R333). The model's choices: that the block holds its state while rst = 1
(log 6), that host_rdata and the host agent keep theirs at the fall of rst (log 11) and the free-value counter its own
(log 3), and that a wire command is ignored like the OP write it stands for (log 7). -/
def Obligations.ResetInputLeavesTheResetState : Prop :=
  ∀ (s : State) (rest : List Input),
    (s.inputs = .rst true :: rest → step s = .next { s with rst := true, inputs := rest }) ∧
    (s.rst = true → s.rxReady = false ∧ s.txValid = false ∧
      (∀ (a : Addr) (v : Byte), HostActs s (.write a v) rest → step s = .next { s with inputs := rest }) ∧
      (∀ i ∈ [Instr.wireStartMeasurement, Instr.wireReadMeasuredValues],
        HostActs s (.command (opcode i)) rest → step s = .next { s with inputs := rest }) ∧
      (∀ p : Ports, s.inputs = .ports p :: rest → step s = .next { s with inputs := rest }) ∧
      (s.inputs = .rst false :: rest → step s = .next { State.reset with
        hostRdata := s.hostRdata, rxStream := s.rxStream, txStream := s.txStream, host := s.host,
        inputs := rest, free := s.free }))

/-- Outside a DEC and the fall of rst, no step changes RX_VALID, EMPTY, an RX register or an RXP entry (10_state.md R22,
R28, R29, R43; 70_reset_and_hazards.md R331). After a DEC that ended with an error the RX registers are unspecified
(R203), and that they keep one value until the next DEC is the model's choice, unsafe (log 5). -/
def Obligations.OnlyDecTouchesTheHeldPacket : Prop :=
  ∀ s t : State, step s = .next t → s.fsm.isDec = false → t.fsm.isDec = false →
    (∀ rest, s.inputs = .rst false :: rest → s.rst = false) →
    t.rxValid = s.rxValid ∧ t.isEmpty = s.isEmpty ∧ t.rxAddr = s.rxAddr ∧ t.rxCmd = s.rxCmd ∧
      t.rxState = s.rxState ∧ t.rxLen = s.rxLen ∧ t.rxCksum = s.rxCksum ∧ t.rxCksumCalc = s.rxCksumCalc ∧
      ∀ i, t.rxp i = s.rxp i

/-- Only a DEC takes RX bytes, one a step from the front; the rest of the stream keeps its order; TX bytes are never taken
back (R66). -/
def Obligations.StreamsMoveOneByteInOrder : Prop :=
  ∀ s t : State, step s = .next t →
    ((∃ more : List Byte, t.rxStream = s.rxStream ++ more ∧
        (more ≠ [] → ∃ rest, s.inputs = .rx more :: rest)) ∨
      (s.fsm.isDec = true ∧ ∃ r, s.rxStream = r :: t.rxStream)) ∧
    (t.txStream = s.txStream ∨ (s.fsm = .encEmit ∧ ∃ b q, s.txq = b :: q ∧ t.txStream = s.txStream ++ [b]))

/-- The only fault of a step is an ENC of an unwritten payload, and instructions are never refused
(70_reset_and_hazards.md R341; 93_implementation_defined.md I2). -/
def Obligations.OnlyEncOfUnwrittenPayloadFaults : Prop :=
  (∀ (s : State) (f : Fault), step s = .fault f → f = .unwrittenPayload ∧ s.accepting = true ∧ ¬ PayloadWritten s ∧
    ((∃ v rest, HostActs s (.write 0x001#10 v) rest ∧ v &&& 0x0F#8 = 0x01#8) ∨
      (∃ rest l, s.inputs = .turn :: rest ∧ (s.host.script = .stmt (.op .enc) :: l ∨
        ∃ n v, s.host.script = .stmt (.wr n v) :: l ∧ regAddr n = 0x001#10 ∧ v &&& 0x0F#8 = 0x01#8)))) ∧
    (∀ (i : Instr) (s : State) (r : Refusal), exec i s ≠ .refused r)

/-- MeasWord(k) has RXP[4k] in its top byte and RXP[4k+3] in its bottom byte (R236). -/
def Obligations.MeasurementWordsAreBigEndian : Prop :=
  ∀ (s : State) (k : Nat) (b0 b1 b2 b3 : Byte), s.rxp (4 * k) = some b0 → s.rxp (4 * k + 1) = some b1 →
    s.rxp (4 * k + 2) = some b2 → s.rxp (4 * k + 3) = some b3 →
    ∃ w : Word32, s.measWord k = some w ∧ w.extractLsb' 24 8 = b0 ∧ w.extractLsb' 16 8 = b1 ∧
      w.extractLsb' 8 8 = b2 ∧ w.extractLsb' 0 8 = b3

/-- The host reads sign, exponent and fraction of a measurement word at their places (45_response_check.md R240;
93_implementation_defined.md G4). -/
def Obligations.MeasurementWordsReadAsBinary32 : Prop :=
  ∀ (neg : Bool) (e f : Nat), e < 256 → f < 0x800000 →
    binary32 (BitVec.ofNat 32 ((if neg then 0x80000000 else 0) + e * 0x800000 + f)) =
      if e = 0 then .finite neg f (-149)
      else if e = 255 then (if f = 0 then .infinite neg else .nan)
      else .finite neg (2 ^ 23 + f) ((e : Int) - 150)

/-- The return of READ_MEASURED_VALUES reads RXP[0 .. 39] and returns the ten words in the source's order
(45_response_check.md R236, R237; 46_host_operations.md R265; 20_memory.md R70). -/
def Obligations.MeasurementReturnsTheTenWordsInOrder : Prop :=
  ∀ (s : State) (rest : List Input), s.fsm.isDec = false → s.host.script = returnScript →
    s.host.got = [] → (∀ i, i < 40 → (s.rxp i).isSome = true) → s.inputs = List.replicate 41 .turn ++ rest →
    ∃ (m : Measurement) (t : State), runSteps 41 s = .next t ∧
      t.host.results = s.host.results ++ [.measurement m] ∧ t.host.script = [] ∧ t.inputs = rest ∧
      some m.massPm1 = s.measWord 0 ∧ some m.massPm2_5 = s.measWord 1 ∧ some m.massPm4 = s.measWord 2 ∧
      some m.massPm10 = s.measWord 3 ∧ some m.number0_5 = s.measWord 4 ∧ some m.number1 = s.measWord 5 ∧
      some m.number2_5 = s.measWord 6 ∧ some m.number4 = s.measWord 7 ∧ some m.number10 = s.measWord 8 ∧
      some m.typicalSize = s.measWord 9 ∧
      t = { s with hostRdata := t.hostRdata, host := t.host, inputs := rest }

/-- The host reports the error kind that ERRCODE names (46_host_operations.md R271; 60_exceptions.md R290). -/
def Obligations.HostReportsTheBlocksErrorKind : Prop :=
  (∀ e : ErrorKind, hostErrorOf (errcodeOf e) =
    match e with
    | .framing stop => .framing stop
    | .stuffing => .stuffing
    | .checksum => .checksum
    | .unexpectedResponse => .unexpectedResponse
    | .payloadSize => .payloadSize
    | .transport => .transport
    | .illegalOp => .illegalOp
    | .noPacket => .noPacket) ∧
    hostErrorOf 0x06#8 = .retriesExhausted ∧ (∀ e : ErrorKind, errcodeOf e ≠ 0x06#8 ∧ errcodeOf e ∈ legalErrcodes)

/-- The head of the retry loop makes one more attempt below the ceiling and fails with RETRIES_EXHAUSTED at it
(46_host_operations.md R265, R266; 92_eei_decisions.md D25). -/
def Obligations.RetryLoopStopsAtTheCeiling : Prop :=
  ∀ (s : State) (n : Nat) (l : List HostCtl) (rest : List Input), s.inputs = .turn :: rest →
    s.host.script = .retry n :: l →
    (s.host.attempt < n → step s = .next { s with
      inputs := rest
      host := { s.host with
        attempt := s.host.attempt + 1
        script := [.stmt (.op .encRead), .stmt .wait, .check, .stmt (.op .dec), .stmt .wait, .check,
          .stmt (.op .chkMeas), .check, .ifSample, .retry n] } }) ∧
    (n ≤ s.host.attempt → step s = .next { s with
      inputs := rest
      host := { s.host with script := [], results := s.host.results ++ [.failed .retriesExhausted] } })

/-- The host's wait, error test, failure and sample test act on STATUS and ERRCODE as read (46_host_operations.md R262,
R263, R265, R270, R271; 30_encoding.md R103). That each statement takes a turn and makes its own read is the model's
choice (log 9). -/
def Obligations.HostTestsFollowTheStatus : Prop :=
  ∀ (s : State) (l : List HostCtl) (rest : List Input), s.inputs = .turn :: rest →
    (s.host.script = .stmt .wait :: l → step s = .next { s with
      inputs := rest, hostRdata := s.status
      host := { s.host with script := if s.busy then .stmt .wait :: l else l } }) ∧
    (s.host.script = .check :: l → step s = .next { s with
      inputs := rest, hostRdata := s.status, host := { s.host with script := if s.err then [.fail] else l } }) ∧
    (s.host.script = .fail :: l → step s = .next { s with
      inputs := rest, hostRdata := s.errcode
      host := { s.host with script := [], results := s.host.results ++ [.failed (hostErrorOf s.errcode)] } }) ∧
    (s.host.script = .ifSample :: l → step s = .next { s with
      inputs := rest, hostRdata := s.status, host := { s.host with script := if s.sample then returnScript else l } }) ∧
    (s.host.script = .succeed :: l → step s = .next { s with
      inputs := rest, host := { s.host with script := [], results := s.host.results ++ [.success] } })

/-- A waiting host operation starts with the statements the spec expands it to, READ_MEASURED_VALUES with 100 attempts
where the count is left out (46_host_operations.md R260, R262, R263, R265, R272; 30_encoding.md R104; 00_scope.md R8).
The model's choices: that a call starts on a turn of its own (log 9), and that a script of plain statements, to which
the spec gives no result, ends with success (log 24). -/
def Obligations.WaitingCallsStartWithTheirExpansion : Prop :=
  ∀ (s : State) (c : HostCall) (cs : List HostCall) (rest : List Input), s.inputs = .turn :: rest →
    s.host.script = [] → s.host.waiting = c :: cs →
    ∃ l : List HostCtl, step s = .next { s with
        inputs := rest, host := { s.host with call := some c, script := l, waiting := cs, attempt := 0, got := [] } } ∧
      match c with
      | .send a k p => l = [.stmt (.wr .txAddr a), .stmt (.wr .txCmd k), .stmt (.wr .txLen (BitVec.ofNat 8 p.length))] ++
          p.zipIdx.map (fun x => .stmt (.wr (.txp x.2) x.1)) ++ [.stmt (.op .enc), .stmt .wait, .check, .succeed]
      | .recv => l = [.stmt (.op .dec), .stmt .wait, .check, .succeed]
      | .startMeasurement => l = [.stmt (.op .encStart), .stmt .wait, .check, .stmt (.op .dec), .stmt .wait, .check,
          .stmt (.op .chkAck), .check, .succeed]
      | .readMeasuredValues (some n) => l = [.retry n]
      | .readMeasuredValues none => l = [.retry 100]
      | .script stmts => l = stmts.map .stmt ++ [.succeed]

/-- The per-call state of a call of the command protocol is the one R268 gives for where its operations stand
(46_host_operations.md R268). R268 gives these states as events; reading them off the script and STATUS is the model's
reading (log 22). -/
def Obligations.CallPhasesFollowTheOperations : Prop :=
  ∀ (s : State) (c : HostCall) (l : List HostCtl) (n : Nat), s.host.call = some c →
    (c = .startMeasurement ∨ ∃ m, c = .readMeasuredValues m) →
    (∀ i ∈ [Instr.encStart, Instr.encRead], s.host.script = .stmt (.op i) :: l →
      s.callPhase = if s.host.attempt ≤ 1 then .idle else .retrySent) ∧
    (s.host.script = .stmt .wait :: .check :: .stmt (.op .dec) :: l → s.busy = false →
      s.callPhase = if s.err then .failed else .sent) ∧
    (∀ i ∈ [Instr.chkAck, Instr.chkMeas], s.host.script = .stmt .wait :: .check :: .stmt (.op i) :: l →
      s.callPhase = if s.err then .failed else .awaitingFrame) ∧
    (s.host.script = [.check, .succeed] → s.callPhase = if s.err then .failed else .complete) ∧
    (s.host.script = [.check, .ifSample, .retry n] → s.callPhase =
      if s.err then .failed else if s.sample then .complete else if s.host.attempt < n then .retrySent else .failed) ∧
    (s.host.script = [.retry n] → n ≤ s.host.attempt → s.callPhase = .failed) ∧
    (s.host.script = [] → ∀ (rs : List HostResult) (r : HostResult), s.host.results = rs ++ [r] →
      ((∃ e, r = .failed e) → s.callPhase = .failed) ∧ ((¬ ∃ e, r = .failed e) → s.callPhase = .complete))

/-- START_MEASUREMENT in STRICT mode succeeds when the sensor answers 7E 00 00 00 00 FF 7E (46_host_operations.md R263;
45_response_check.md R232; 95_test_vectors.md P1). -/
def Obligations.StartMeasurementSucceedsOnTheAcknowledgement : Prop :=
  ∀ (s : State) (rs : List Byte) (waiting : List HostCall) (rest : List Input), s.accepting = true → bit s.ctrl 0 = true →
    s.host.script = [] → s.host.waiting = .startMeasurement :: waiting →
    s.rxStream = [0x7E#8, 0x00#8, 0x00#8, 0x00#8, 0x00#8, 0xFF#8, 0x7E#8] ++ rs →
    s.inputs = [.turn, .turn] ++ portSteps 8 takePorts ++ [.turn, .turn, .turn] ++ portSteps 7 offerPorts ++
      [.turn, .turn, .turn, .turn, .turn] ++ rest →
    ∃ t : State, runSteps 25 s = .next t ∧
      t.host.results = s.host.results ++ [.success] ∧ t.host.script = [] ∧ t.host.waiting = waiting ∧
      t.txStream = s.txStream ++ [0x7E#8, 0x00#8, 0x00#8, 0x02#8, 0x01#8, 0x03#8, 0xF9#8, 0x7E#8] ∧
      t.rxStream = rs ∧ t.inputs = rest ∧ t.status = (s.status &&& 0x80#8) ||| 0x3A#8 ∧ t.errcode = 0x00#8
end

