-- ==== Sys2Proof/Laws/Codec.lean ====
section
/-! SUPPORT. The codec, one logical byte at a time (41_byte_codec.md), and the checksum sum. -/

namespace Sys2Proof.Machine

/-- A row of the stuffing table is undone by a row of the escape table (R121, R120). -/
theorem unEsc_flip (b : Byte) (h : isReserved b = true) : unEsc (b ^^^ Config.escapeFlip) = some b := by
  revert b; decide

theorem escapeMarker_reserved (b : Byte) (h : isReserved b = false) : b ≠ Config.escapeMarker := by
  intro hb; subst hb; revert h; decide

/-- What `Stuff` is in each of its two cases (R122). -/
theorem stuff_cases (b : Byte) :
    (isReserved b = true ∧ stuff b = [Config.escapeMarker, b ^^^ Config.escapeFlip]) ∨
      (isReserved b = false ∧ stuff b = [b]) := by
  cases h : isReserved b <;> simp [stuff, h]

/-- One logical byte comes back from its raw bytes, whatever follows (R127 for one byte). -/
theorem unstuff1_stuff (b : Byte) (rest : List Byte) :
    unstuff1 (stuff b ++ rest) = .got b (stuff b).length rest := by
  rcases stuff_cases b with ⟨h, hs⟩ | ⟨h, hs⟩
  · simp [hs, unstuff1, unEsc_flip b h]
  · simp [hs, unstuff1, escapeMarker_reserved b h]

theorem stuff_length (b : Byte) : (stuff b).length = if isReserved b then 2 else 1 := by
  rcases stuff_cases b with ⟨h, hs⟩ | ⟨h, hs⟩ <;> simp [hs, h]

@[simp] theorem stuffSeq_nil : stuffSeq [] = [] := rfl
@[simp] theorem stuffSeq_cons (b : Byte) (s : List Byte) : stuffSeq (b :: s) = stuff b ++ stuffSeq s := rfl

theorem stuffSeq_append (s t : List Byte) : stuffSeq (s ++ t) = stuffSeq s ++ stuffSeq t := by
  induction s with
  | nil => rfl
  | cons b s ih => simp [ih]

@[simp] theorem byteSum_nil : byteSum [] = 0#8 := rfl
@[simp] theorem byteSum_cons (b : Byte) (s : List Byte) : byteSum (b :: s) = b + byteSum s := rfl

theorem byteSum_append (s t : List Byte) : byteSum (s ++ t) = byteSum s + byteSum t := by
  induction s with
  | nil => simp
  | cons b s ih => simp [ih, BitVec.add_assoc]

theorem lenByte_toNat (p : List Byte) (h : p.length ≤ 255) : (lenByte p).toNat = p.length := by
  simp only [lenByte, BitVec.toNat_ofNat]; omega

end Sys2Proof.Machine
end

