-- ==== Sys2Proof/Laws/Flags.lean ====
section
/-! SUPPORT. The bits of STATUS after each of its updates. -/

namespace Sys2Proof.Machine

@[simp] theorem bit_setBit (x : Byte) (i j : Nat) (b : Bool) (hi : i < 8) :
    bit (setBit x i b) j = if j = i then b else bit x j := by
  simp only [bit]
  cases b
  · by_cases hj : j < 8
    · by_cases h : j = i
      · subst h; simp [setBit, hj]
      · simp [setBit, hj, h]
    · simp [setBit, BitVec.getLsbD_of_ge _ j (Nat.le_of_not_lt hj)]
  · by_cases h : j = i
    · subst h; simp [setBit, hi]
    · simp [setBit, h, BitVec.getLsbD_twoPow, Ne.symm h]

/-- Two registers are equal when their eight bits are. -/
theorem byte_ext {x y : Byte} (h : ∀ i, i < 8 → bit x i = bit y i) : x = y :=
  BitVec.eq_of_getLsbD_eq h

@[simp] theorem bit_statusStart (x : Byte) (j : Nat) :
    bit (statusStart x) j = if j = 6 then false else if j = 5 then false else if j = 2 then false
      else if j = 1 then false else bit x j := by
  simp [statusStart, doneBit, errBit, ackBit, sampleBit]

@[simp] theorem bit_statusFinish (x : Byte) (j : Nat) :
    bit (statusFinish x) j = if j = 1 then true else if j = 0 then false else bit x j := by
  simp [statusFinish, doneBit, busyBit]

@[simp] theorem bit_statusRaise (x : Byte) (j : Nat) :
    bit (statusRaise x) j = if j = 2 then true else if j = 1 then true else if j = 0 then false else bit x j := by
  simp [statusRaise, errBit]

@[simp] theorem bit_statusPacket (x : Byte) (v e : Bool) (j : Nat) :
    bit (statusPacket x v e) j = if j = 4 then e else if j = 3 then v else bit x j := by
  simp [statusPacket, emptyBit, rxValidBit]

end Sys2Proof.Machine
end

