-- ==== Sys2Proof/Laws/Memory.lean ====
section
/-! SUPPORT. The laws of the payload-buffer memory: read after write, and that every operation keeps the canonical form. -/

namespace Sys2Proof.Machine

@[simp] theorem Memory.read_nil (a : Nat) : Memory.read [] a = none := rfl

theorem Memory.read_write_same (m : Memory) (a : Nat) (b : Byte) : (m.write a b).read a = some b := by
  induction m with
  | nil => simp [Memory.write, Memory.read]
  | cons c m ih =>
    obtain ⟨k, v⟩ := c
    simp only [Memory.write]
    split
    · simp [Memory.read]
    · split
      · simp [Memory.read]
      · rename_i h₁ h₂
        have hk : k ≠ a := fun h => h₂ h.symm
        simp [Memory.read, hk, ih]

theorem Memory.read_write_other (m : Memory) (a a' : Nat) (b : Byte) (h : a' ≠ a) :
    (m.write a b).read a' = m.read a' := by
  induction m with
  | nil => simp [Memory.write, Memory.read, Ne.symm h, Memory.unlisted]
  | cons c m ih =>
    obtain ⟨k, v⟩ := c
    simp only [Memory.write]
    split
    · simp [Memory.read, Ne.symm h]
    · split
      · rename_i h₁ h₂
        subst h₂
        simp [Memory.read, Ne.symm h]
      · simp [Memory.read, ih]

theorem Memory.read_write (m : Memory) (a a' : Nat) (b : Byte) :
    (m.write a b).read a' = if a' = a then some b else m.read a' := by
  by_cases h : a' = a
  · subst h; simp [Memory.read_write_same]
  · simp [h, Memory.read_write_other m a a' b h]

theorem Memory.isSome_read_write (m : Memory) (a a' : Nat) (b : Byte) (h : (m.read a').isSome = true) :
    ((m.write a b).read a').isSome = true := by
  rw [Memory.read_write]; split <;> simp [h]

theorem Memory.risingFrom_mono {lo lo' : Nat} (h : lo' ≤ lo) :
    ∀ m : Memory, m.risingFrom lo = true → m.risingFrom lo' = true
  | [], _ => rfl
  | (k, _) :: _, hm => by
    simp only [Memory.risingFrom, Bool.and_eq_true, decide_eq_true_eq] at hm ⊢
    exact ⟨Nat.le_trans h hm.1, hm.2⟩

theorem Memory.risingFrom_write (m : Memory) (lo a : Nat) (b : Byte) (hlo : lo ≤ a)
    (hm : m.risingFrom lo = true) : (m.write a b).risingFrom lo = true := by
  induction m generalizing lo with
  | nil => simp [Memory.write, Memory.risingFrom, hlo]
  | cons c m ih =>
    obtain ⟨k, v⟩ := c
    simp only [Memory.risingFrom, Bool.and_eq_true, decide_eq_true_eq] at hm
    simp only [Memory.write]
    split
    · rename_i h
      simp only [Memory.risingFrom, Bool.and_eq_true, decide_eq_true_eq]
      exact ⟨hlo, h, hm.2⟩
    · split
      · rename_i h
        subst h
        simp [Memory.risingFrom, hlo, hm.2]
      · simp only [Memory.risingFrom, Bool.and_eq_true, decide_eq_true_eq]
        exact ⟨hm.1, ih (k + 1) (by omega) hm.2⟩

theorem Memory.all_write (p : Host.Cell → Bool) (m : Memory) (a : Nat) (b : Byte) (hab : p (a, b) = true)
    (hm : m.all p = true) : (m.write a b).all p = true := by
  induction m with
  | nil => simp [Memory.write, hab]
  | cons c m ih =>
    obtain ⟨k, v⟩ := c
    simp only [List.all_cons, Bool.and_eq_true] at hm
    simp only [Memory.write]
    split
    · simp [hab, hm.1, hm.2]
    · split
      · simp [hab, hm.2]
      · simp only [List.all_cons, Bool.and_eq_true]
        exact ⟨hm.1, ih hm.2⟩

/-- A write to a payload-buffer address keeps the canonical form. -/
theorem Memory.wf_write (m : Memory) (a : Nat) (b : Byte) (hlo : txpBase ≤ a) (hhi : a < payloadEnd)
    (hm : m.wf = true) : (m.write a b).wf = true := by
  simp only [Memory.wf, Bool.and_eq_true] at hm ⊢
  exact ⟨Memory.risingFrom_write m _ a b hlo hm.1, Memory.all_write _ m a b (by simpa using hhi) hm.2⟩

theorem Memory.risingFrom_filter (p : Host.Cell → Bool) (m : Memory) (lo : Nat) (hm : m.risingFrom lo = true) :
    Memory.risingFrom lo (m.filter p) = true := by
  induction m generalizing lo with
  | nil => rfl
  | cons c m ih =>
    obtain ⟨k, v⟩ := c
    simp only [Memory.risingFrom, Bool.and_eq_true, decide_eq_true_eq] at hm
    by_cases hp : p (k, v) = true
    · simp only [List.filter_cons, hp, if_true, Memory.risingFrom, Bool.and_eq_true, decide_eq_true_eq]
      exact ⟨hm.1, ih _ hm.2⟩
    · simp only [List.filter_cons, hp]
      exact ih lo (Memory.risingFrom_mono (by omega) m hm.2)

/-- Forgetting RXP keeps the canonical form. -/
theorem Memory.wf_forgetRxp (m : Memory) (hm : m.wf = true) : m.forgetRxp.wf = true := by
  simp only [Memory.wf, Bool.and_eq_true] at hm ⊢
  refine ⟨Memory.risingFrom_filter _ m _ hm.1, ?_⟩
  simp only [Memory.forgetRxp, List.all_filter]
  have h := hm.2
  simp only [List.all_eq_true] at h ⊢
  intro x hx
  simp [h x hx]

theorem Memory.wf_nil : Memory.wf [] = true := rfl

/-- TXP survives the forgetting of RXP, and nothing of RXP does. -/
theorem Memory.read_forgetRxp (m : Memory) (a : Nat) :
    m.forgetRxp.read a = if a < rxpBase then m.read a else none := by
  induction m with
  | nil => simp [Memory.forgetRxp]
  | cons c m ih =>
    obtain ⟨k, v⟩ := c
    simp only [Memory.forgetRxp] at ih ⊢
    by_cases hk : k < rxpBase
    · simp only [List.filter_cons, hk, decide_true, if_true, Memory.read, ih]
      by_cases hka : k = a
      · subst hka; simp [hk]
      · simp [hka]
    · simp only [List.filter_cons, hk, decide_false, Memory.read]
      by_cases hka : k = a
      · subst hka; simp [hk, ih]
      · simp [hka, ih]

/-- A block is read whole exactly when each of its addresses holds a value. -/
theorem Memory.readBlock_isSome (m : Memory) (a n : Nat) :
    (m.readBlock a n).isSome = true ↔ ∀ i, i < n → (m.read (a + i)).isSome = true := by
  induction n generalizing a with
  | zero => simp [Memory.readBlock]
  | succ n ih =>
    simp only [Memory.readBlock]
    constructor
    · intro h i hi
      cases hr : m.read a with
      | none => simp [hr] at h
      | some b =>
        cases hb : m.readBlock (a + 1) n with
        | none => simp [hr, hb] at h
        | some bs =>
          rcases i with _ | i
          · simp [hr]
          · have := (ih (a + 1)).1 (by simp [hb]) i (by omega)
            simpa [Nat.add_assoc, Nat.add_comm 1 i] using this
    · intro h
      have h0 := h 0 (by omega)
      have hs := (ih (a + 1)).2 (fun i hi => by
        have := h (i + 1) (by omega)
        simpa [Nat.add_assoc, Nat.add_comm 1 i] using this)
      simp only [Nat.add_zero] at h0
      obtain ⟨b, hb⟩ := Option.isSome_iff_exists.1 h0
      obtain ⟨bs, hbs⟩ := Option.isSome_iff_exists.1 hs
      simp [hb, hbs]

theorem Memory.readBlock_length (m : Memory) (a n : Nat) (p : List Byte) (h : m.readBlock a n = some p) :
    p.length = n := by
  induction n generalizing a p with
  | zero => simp [Memory.readBlock] at h; subst h; rfl
  | succ n ih =>
    simp only [Memory.readBlock] at h
    split at h
    · cases h
    · split at h
      · cases h
      · rename_i bs hbs
        cases h
        simp [ih _ _ hbs]

/-- Reading a block depends only on the bytes read. -/
theorem Memory.readBlock_congr (m m' : Memory) (a n : Nat) (h : ∀ i, i < n → m.read (a + i) = m'.read (a + i)) :
    m.readBlock a n = m'.readBlock a n := by
  induction n generalizing a with
  | zero => rfl
  | succ n ih =>
    have h0 := h 0 (by omega)
    have hs := ih (a + 1) (fun i hi => by
      have := h (i + 1) (by omega)
      simpa [Nat.add_assoc, Nat.add_comm 1 i] using this)
    simp only [Nat.add_zero] at h0
    simp only [Memory.readBlock, h0, hs]

end Sys2Proof.Machine
end

