-- ==== Sys2Proof/Laws/State.lean ====
section
/-! SUPPORT. The fields of State after each named update: one lemma per field, true by unfolding. -/

namespace Sys2Proof.Machine

@[simp] theorem startActions_ctrl (opc : Byte) (s : State) : (startActions opc s).ctrl = s.ctrl := rfl
@[simp] theorem startActions_op (opc : Byte) (s : State) : (startActions opc s).op = opc := rfl
@[simp] theorem startActions_status (opc : Byte) (s : State) : (startActions opc s).status = statusStart s.status := rfl
@[simp] theorem startActions_errcode (opc : Byte) (s : State) : (startActions opc s).errcode = 0x00#8 := rfl
@[simp] theorem startActions_errbyte (opc : Byte) (s : State) : (startActions opc s).errbyte = 0x00#8 := rfl
@[simp] theorem startActions_txAddr (opc : Byte) (s : State) : (startActions opc s).txAddr = s.txAddr := rfl
@[simp] theorem startActions_txCmd (opc : Byte) (s : State) : (startActions opc s).txCmd = s.txCmd := rfl
@[simp] theorem startActions_txLen (opc : Byte) (s : State) : (startActions opc s).txLen = s.txLen := rfl
@[simp] theorem startActions_txCksum (opc : Byte) (s : State) : (startActions opc s).txCksum = s.txCksum := rfl
@[simp] theorem startActions_rxAddr (opc : Byte) (s : State) : (startActions opc s).rxAddr = s.rxAddr := rfl
@[simp] theorem startActions_rxCmd (opc : Byte) (s : State) : (startActions opc s).rxCmd = s.rxCmd := rfl
@[simp] theorem startActions_rxState (opc : Byte) (s : State) : (startActions opc s).rxState = s.rxState := rfl
@[simp] theorem startActions_rxLen (opc : Byte) (s : State) : (startActions opc s).rxLen = s.rxLen := rfl
@[simp] theorem startActions_rxCksum (opc : Byte) (s : State) : (startActions opc s).rxCksum = s.rxCksum := rfl
@[simp] theorem startActions_rxCksumCalc (opc : Byte) (s : State) : (startActions opc s).rxCksumCalc = s.rxCksumCalc := rfl
@[simp] theorem startActions_mem (opc : Byte) (s : State) : (startActions opc s).mem = s.mem := rfl
@[simp] theorem startActions_fsm (opc : Byte) (s : State) : (startActions opc s).fsm = s.fsm := rfl
@[simp] theorem startActions_esc (opc : Byte) (s : State) : (startActions opc s).esc = s.esc := rfl
@[simp] theorem startActions_idx (opc : Byte) (s : State) : (startActions opc s).idx = s.idx := rfl
@[simp] theorem startActions_sum (opc : Byte) (s : State) : (startActions opc s).sum = s.sum := rfl
@[simp] theorem startActions_ckraw (opc : Byte) (s : State) : (startActions opc s).ckraw = s.ckraw := rfl
@[simp] theorem startActions_strict (opc : Byte) (s : State) : (startActions opc s).strict = s.strict := rfl
@[simp] theorem startActions_txq (opc : Byte) (s : State) : (startActions opc s).txq = s.txq := rfl
@[simp] theorem startActions_rst (opc : Byte) (s : State) : (startActions opc s).rst = s.rst := rfl
@[simp] theorem startActions_hostRdata (opc : Byte) (s : State) : (startActions opc s).hostRdata = s.hostRdata := rfl
@[simp] theorem startActions_rxStream (opc : Byte) (s : State) : (startActions opc s).rxStream = s.rxStream := rfl
@[simp] theorem startActions_txStream (opc : Byte) (s : State) : (startActions opc s).txStream = s.txStream := rfl
@[simp] theorem startActions_host (opc : Byte) (s : State) : (startActions opc s).host = s.host := rfl
@[simp] theorem startActions_inputs (opc : Byte) (s : State) : (startActions opc s).inputs = s.inputs := rfl
@[simp] theorem startActions_free (opc : Byte) (s : State) : (startActions opc s).free = s.free := rfl

@[simp] theorem finish_ctrl (s : State) : (finish s).ctrl = s.ctrl := rfl
@[simp] theorem finish_op (s : State) : (finish s).op = s.op := rfl
@[simp] theorem finish_status (s : State) : (finish s).status = statusFinish s.status := rfl
@[simp] theorem finish_errcode (s : State) : (finish s).errcode = s.errcode := rfl
@[simp] theorem finish_errbyte (s : State) : (finish s).errbyte = s.errbyte := rfl
@[simp] theorem finish_txAddr (s : State) : (finish s).txAddr = s.txAddr := rfl
@[simp] theorem finish_txCmd (s : State) : (finish s).txCmd = s.txCmd := rfl
@[simp] theorem finish_txLen (s : State) : (finish s).txLen = s.txLen := rfl
@[simp] theorem finish_txCksum (s : State) : (finish s).txCksum = s.txCksum := rfl
@[simp] theorem finish_rxAddr (s : State) : (finish s).rxAddr = s.rxAddr := rfl
@[simp] theorem finish_rxCmd (s : State) : (finish s).rxCmd = s.rxCmd := rfl
@[simp] theorem finish_rxState (s : State) : (finish s).rxState = s.rxState := rfl
@[simp] theorem finish_rxLen (s : State) : (finish s).rxLen = s.rxLen := rfl
@[simp] theorem finish_rxCksum (s : State) : (finish s).rxCksum = s.rxCksum := rfl
@[simp] theorem finish_rxCksumCalc (s : State) : (finish s).rxCksumCalc = s.rxCksumCalc := rfl
@[simp] theorem finish_mem (s : State) : (finish s).mem = s.mem := rfl
@[simp] theorem finish_fsm (s : State) : (finish s).fsm = .idle := rfl
@[simp] theorem finish_esc (s : State) : (finish s).esc = s.esc := rfl
@[simp] theorem finish_idx (s : State) : (finish s).idx = s.idx := rfl
@[simp] theorem finish_sum (s : State) : (finish s).sum = s.sum := rfl
@[simp] theorem finish_ckraw (s : State) : (finish s).ckraw = s.ckraw := rfl
@[simp] theorem finish_strict (s : State) : (finish s).strict = s.strict := rfl
@[simp] theorem finish_txq (s : State) : (finish s).txq = [] := rfl
@[simp] theorem finish_rst (s : State) : (finish s).rst = s.rst := rfl
@[simp] theorem finish_hostRdata (s : State) : (finish s).hostRdata = s.hostRdata := rfl
@[simp] theorem finish_rxStream (s : State) : (finish s).rxStream = s.rxStream := rfl
@[simp] theorem finish_txStream (s : State) : (finish s).txStream = s.txStream := rfl
@[simp] theorem finish_host (s : State) : (finish s).host = s.host := rfl
@[simp] theorem finish_inputs (s : State) : (finish s).inputs = s.inputs := rfl
@[simp] theorem finish_free (s : State) : (finish s).free = s.free := rfl

@[simp] theorem raise_ctrl (e : ErrorKind) (b : Byte) (s : State) : (raise e b s).ctrl = s.ctrl := rfl
@[simp] theorem raise_op (e : ErrorKind) (b : Byte) (s : State) : (raise e b s).op = s.op := rfl
@[simp] theorem raise_status (e : ErrorKind) (b : Byte) (s : State) : (raise e b s).status = statusRaise s.status := rfl
@[simp] theorem raise_errcode (e : ErrorKind) (b : Byte) (s : State) : (raise e b s).errcode = errcodeOf e := rfl
@[simp] theorem raise_errbyte (e : ErrorKind) (b : Byte) (s : State) : (raise e b s).errbyte = b := rfl
@[simp] theorem raise_txAddr (e : ErrorKind) (b : Byte) (s : State) : (raise e b s).txAddr = s.txAddr := rfl
@[simp] theorem raise_txCmd (e : ErrorKind) (b : Byte) (s : State) : (raise e b s).txCmd = s.txCmd := rfl
@[simp] theorem raise_txLen (e : ErrorKind) (b : Byte) (s : State) : (raise e b s).txLen = s.txLen := rfl
@[simp] theorem raise_txCksum (e : ErrorKind) (b : Byte) (s : State) : (raise e b s).txCksum = s.txCksum := rfl
@[simp] theorem raise_rxAddr (e : ErrorKind) (b : Byte) (s : State) : (raise e b s).rxAddr = s.rxAddr := rfl
@[simp] theorem raise_rxCmd (e : ErrorKind) (b : Byte) (s : State) : (raise e b s).rxCmd = s.rxCmd := rfl
@[simp] theorem raise_rxState (e : ErrorKind) (b : Byte) (s : State) : (raise e b s).rxState = s.rxState := rfl
@[simp] theorem raise_rxLen (e : ErrorKind) (b : Byte) (s : State) : (raise e b s).rxLen = s.rxLen := rfl
@[simp] theorem raise_rxCksum (e : ErrorKind) (b : Byte) (s : State) : (raise e b s).rxCksum = s.rxCksum := rfl
@[simp] theorem raise_rxCksumCalc (e : ErrorKind) (b : Byte) (s : State) : (raise e b s).rxCksumCalc = s.rxCksumCalc := rfl
@[simp] theorem raise_mem (e : ErrorKind) (b : Byte) (s : State) : (raise e b s).mem = s.mem := rfl
@[simp] theorem raise_fsm (e : ErrorKind) (b : Byte) (s : State) : (raise e b s).fsm = .idle := rfl
@[simp] theorem raise_esc (e : ErrorKind) (b : Byte) (s : State) : (raise e b s).esc = false := rfl
@[simp] theorem raise_idx (e : ErrorKind) (b : Byte) (s : State) : (raise e b s).idx = s.idx := rfl
@[simp] theorem raise_sum (e : ErrorKind) (b : Byte) (s : State) : (raise e b s).sum = s.sum := rfl
@[simp] theorem raise_ckraw (e : ErrorKind) (b : Byte) (s : State) : (raise e b s).ckraw = s.ckraw := rfl
@[simp] theorem raise_strict (e : ErrorKind) (b : Byte) (s : State) : (raise e b s).strict = s.strict := rfl
@[simp] theorem raise_txq (e : ErrorKind) (b : Byte) (s : State) : (raise e b s).txq = [] := rfl
@[simp] theorem raise_rst (e : ErrorKind) (b : Byte) (s : State) : (raise e b s).rst = s.rst := rfl
@[simp] theorem raise_hostRdata (e : ErrorKind) (b : Byte) (s : State) : (raise e b s).hostRdata = s.hostRdata := rfl
@[simp] theorem raise_rxStream (e : ErrorKind) (b : Byte) (s : State) : (raise e b s).rxStream = s.rxStream := rfl
@[simp] theorem raise_txStream (e : ErrorKind) (b : Byte) (s : State) : (raise e b s).txStream = s.txStream := rfl
@[simp] theorem raise_host (e : ErrorKind) (b : Byte) (s : State) : (raise e b s).host = s.host := rfl
@[simp] theorem raise_inputs (e : ErrorKind) (b : Byte) (s : State) : (raise e b s).inputs = s.inputs := rfl
@[simp] theorem raise_free (e : ErrorKind) (b : Byte) (s : State) : (raise e b s).free = s.free := rfl

@[simp] theorem unspecifyRx_ctrl (s : State) : (unspecifyRx s).ctrl = s.ctrl := rfl
@[simp] theorem unspecifyRx_op (s : State) : (unspecifyRx s).op = s.op := rfl
@[simp] theorem unspecifyRx_status (s : State) : (unspecifyRx s).status = statusPacket s.status false false := rfl
@[simp] theorem unspecifyRx_errcode (s : State) : (unspecifyRx s).errcode = s.errcode := rfl
@[simp] theorem unspecifyRx_errbyte (s : State) : (unspecifyRx s).errbyte = s.errbyte := rfl
@[simp] theorem unspecifyRx_txAddr (s : State) : (unspecifyRx s).txAddr = s.txAddr := rfl
@[simp] theorem unspecifyRx_txCmd (s : State) : (unspecifyRx s).txCmd = s.txCmd := rfl
@[simp] theorem unspecifyRx_txLen (s : State) : (unspecifyRx s).txLen = s.txLen := rfl
@[simp] theorem unspecifyRx_txCksum (s : State) : (unspecifyRx s).txCksum = s.txCksum := rfl
@[simp] theorem unspecifyRx_rxAddr (s : State) : (unspecifyRx s).rxAddr = Config.freeByte s.free := rfl
@[simp] theorem unspecifyRx_rxCmd (s : State) : (unspecifyRx s).rxCmd = Config.freeByte (s.free + 1) := rfl
@[simp] theorem unspecifyRx_rxState (s : State) : (unspecifyRx s).rxState = Config.freeByte (s.free + 2) := rfl
@[simp] theorem unspecifyRx_rxLen (s : State) : (unspecifyRx s).rxLen = Config.freeByte (s.free + 3) := rfl
@[simp] theorem unspecifyRx_rxCksum (s : State) : (unspecifyRx s).rxCksum = Config.freeByte (s.free + 4) := rfl
@[simp] theorem unspecifyRx_rxCksumCalc (s : State) : (unspecifyRx s).rxCksumCalc = Config.freeByte (s.free + 5) := rfl
@[simp] theorem unspecifyRx_mem (s : State) : (unspecifyRx s).mem = s.mem.forgetRxp := rfl
@[simp] theorem unspecifyRx_fsm (s : State) : (unspecifyRx s).fsm = s.fsm := rfl
@[simp] theorem unspecifyRx_esc (s : State) : (unspecifyRx s).esc = s.esc := rfl
@[simp] theorem unspecifyRx_idx (s : State) : (unspecifyRx s).idx = s.idx := rfl
@[simp] theorem unspecifyRx_sum (s : State) : (unspecifyRx s).sum = s.sum := rfl
@[simp] theorem unspecifyRx_ckraw (s : State) : (unspecifyRx s).ckraw = s.ckraw := rfl
@[simp] theorem unspecifyRx_strict (s : State) : (unspecifyRx s).strict = s.strict := rfl
@[simp] theorem unspecifyRx_txq (s : State) : (unspecifyRx s).txq = s.txq := rfl
@[simp] theorem unspecifyRx_rst (s : State) : (unspecifyRx s).rst = s.rst := rfl
@[simp] theorem unspecifyRx_hostRdata (s : State) : (unspecifyRx s).hostRdata = s.hostRdata := rfl
@[simp] theorem unspecifyRx_rxStream (s : State) : (unspecifyRx s).rxStream = s.rxStream := rfl
@[simp] theorem unspecifyRx_txStream (s : State) : (unspecifyRx s).txStream = s.txStream := rfl
@[simp] theorem unspecifyRx_host (s : State) : (unspecifyRx s).host = s.host := rfl
@[simp] theorem unspecifyRx_inputs (s : State) : (unspecifyRx s).inputs = s.inputs := rfl
@[simp] theorem unspecifyRx_free (s : State) : (unspecifyRx s).free = s.free + 6 := rfl

@[simp] theorem decBegin_ctrl (s : State) : (decBegin s).ctrl = s.ctrl := rfl
@[simp] theorem decBegin_op (s : State) : (decBegin s).op = s.op := rfl
@[simp] theorem decBegin_status (s : State) : (decBegin s).status = setBit (statusPacket s.status false false) busyBit true := rfl
@[simp] theorem decBegin_errcode (s : State) : (decBegin s).errcode = s.errcode := rfl
@[simp] theorem decBegin_errbyte (s : State) : (decBegin s).errbyte = s.errbyte := rfl
@[simp] theorem decBegin_txAddr (s : State) : (decBegin s).txAddr = s.txAddr := rfl
@[simp] theorem decBegin_txCmd (s : State) : (decBegin s).txCmd = s.txCmd := rfl
@[simp] theorem decBegin_txLen (s : State) : (decBegin s).txLen = s.txLen := rfl
@[simp] theorem decBegin_txCksum (s : State) : (decBegin s).txCksum = s.txCksum := rfl
@[simp] theorem decBegin_rxAddr (s : State) : (decBegin s).rxAddr = s.rxAddr := rfl
@[simp] theorem decBegin_rxCmd (s : State) : (decBegin s).rxCmd = s.rxCmd := rfl
@[simp] theorem decBegin_rxState (s : State) : (decBegin s).rxState = s.rxState := rfl
@[simp] theorem decBegin_rxLen (s : State) : (decBegin s).rxLen = s.rxLen := rfl
@[simp] theorem decBegin_rxCksum (s : State) : (decBegin s).rxCksum = s.rxCksum := rfl
@[simp] theorem decBegin_rxCksumCalc (s : State) : (decBegin s).rxCksumCalc = s.rxCksumCalc := rfl
@[simp] theorem decBegin_mem (s : State) : (decBegin s).mem = s.mem := rfl
@[simp] theorem decBegin_fsm (s : State) : (decBegin s).fsm = .decSof := rfl
@[simp] theorem decBegin_esc (s : State) : (decBegin s).esc = false := rfl
@[simp] theorem decBegin_idx (s : State) : (decBegin s).idx = 0#8 := rfl
@[simp] theorem decBegin_sum (s : State) : (decBegin s).sum = 0#8 := rfl
@[simp] theorem decBegin_ckraw (s : State) : (decBegin s).ckraw = 0#8 := rfl
@[simp] theorem decBegin_strict (s : State) : (decBegin s).strict = s.ctrlStrict := rfl
@[simp] theorem decBegin_txq (s : State) : (decBegin s).txq = s.txq := rfl
@[simp] theorem decBegin_rst (s : State) : (decBegin s).rst = s.rst := rfl
@[simp] theorem decBegin_hostRdata (s : State) : (decBegin s).hostRdata = s.hostRdata := rfl
@[simp] theorem decBegin_rxStream (s : State) : (decBegin s).rxStream = s.rxStream := rfl
@[simp] theorem decBegin_txStream (s : State) : (decBegin s).txStream = s.txStream := rfl
@[simp] theorem decBegin_host (s : State) : (decBegin s).host = s.host := rfl
@[simp] theorem decBegin_inputs (s : State) : (decBegin s).inputs = s.inputs := rfl
@[simp] theorem decBegin_free (s : State) : (decBegin s).free = s.free := rfl

@[simp] theorem raiseDec_ctrl (e : ErrorKind) (b : Byte) (s : State) : (raiseDec e b s).ctrl = s.ctrl := rfl
@[simp] theorem raiseDec_op (e : ErrorKind) (b : Byte) (s : State) : (raiseDec e b s).op = s.op := rfl
@[simp] theorem raiseDec_status (e : ErrorKind) (b : Byte) (s : State) : (raiseDec e b s).status = statusRaise (statusPacket s.status false false) := rfl
@[simp] theorem raiseDec_errcode (e : ErrorKind) (b : Byte) (s : State) : (raiseDec e b s).errcode = errcodeOf e := rfl
@[simp] theorem raiseDec_errbyte (e : ErrorKind) (b : Byte) (s : State) : (raiseDec e b s).errbyte = b := rfl
@[simp] theorem raiseDec_txAddr (e : ErrorKind) (b : Byte) (s : State) : (raiseDec e b s).txAddr = s.txAddr := rfl
@[simp] theorem raiseDec_txCmd (e : ErrorKind) (b : Byte) (s : State) : (raiseDec e b s).txCmd = s.txCmd := rfl
@[simp] theorem raiseDec_txLen (e : ErrorKind) (b : Byte) (s : State) : (raiseDec e b s).txLen = s.txLen := rfl
@[simp] theorem raiseDec_txCksum (e : ErrorKind) (b : Byte) (s : State) : (raiseDec e b s).txCksum = s.txCksum := rfl
@[simp] theorem raiseDec_mem (e : ErrorKind) (b : Byte) (s : State) : (raiseDec e b s).mem = s.mem.forgetRxp := rfl
@[simp] theorem raiseDec_fsm (e : ErrorKind) (b : Byte) (s : State) : (raiseDec e b s).fsm = .idle := rfl
@[simp] theorem raiseDec_esc (e : ErrorKind) (b : Byte) (s : State) : (raiseDec e b s).esc = false := rfl
@[simp] theorem raiseDec_idx (e : ErrorKind) (b : Byte) (s : State) : (raiseDec e b s).idx = s.idx := rfl
@[simp] theorem raiseDec_sum (e : ErrorKind) (b : Byte) (s : State) : (raiseDec e b s).sum = s.sum := rfl
@[simp] theorem raiseDec_ckraw (e : ErrorKind) (b : Byte) (s : State) : (raiseDec e b s).ckraw = s.ckraw := rfl
@[simp] theorem raiseDec_strict (e : ErrorKind) (b : Byte) (s : State) : (raiseDec e b s).strict = s.strict := rfl
@[simp] theorem raiseDec_txq (e : ErrorKind) (b : Byte) (s : State) : (raiseDec e b s).txq = [] := rfl
@[simp] theorem raiseDec_rst (e : ErrorKind) (b : Byte) (s : State) : (raiseDec e b s).rst = s.rst := rfl
@[simp] theorem raiseDec_hostRdata (e : ErrorKind) (b : Byte) (s : State) : (raiseDec e b s).hostRdata = s.hostRdata := rfl
@[simp] theorem raiseDec_rxStream (e : ErrorKind) (b : Byte) (s : State) : (raiseDec e b s).rxStream = s.rxStream := rfl
@[simp] theorem raiseDec_txStream (e : ErrorKind) (b : Byte) (s : State) : (raiseDec e b s).txStream = s.txStream := rfl
@[simp] theorem raiseDec_host (e : ErrorKind) (b : Byte) (s : State) : (raiseDec e b s).host = s.host := rfl
@[simp] theorem raiseDec_inputs (e : ErrorKind) (b : Byte) (s : State) : (raiseDec e b s).inputs = s.inputs := rfl

/-- TXP is as before after a DEC's error. -/
theorem raiseDec_read_txp (e : ErrorKind) (b : Byte) (s : State) (a : Nat) (h : a < rxpBase) :
    (raiseDec e b s).mem.read a = s.mem.read a := by simp [Memory.read_forgetRxp, h]

end Sys2Proof.Machine
end

