-- ==== Sys2Proof/Laws/Ops.lean ====
section
/-! SUPPORT. What each shared operation can do, said once: acceptance, the start of a frame, host reads and stores, and `exec`. -/

namespace Sys2Proof.Machine

theorem accept_of_accepting (opc : Byte) (f : State → Result) (s : State) (h : s.accepting = true) :
    accept opc f s = f (startActions opc s) := by simp [accept, h]

theorem accept_of_not_accepting (opc : Byte) (f : State → Result) (s : State) (h : s.accepting = false) :
    accept opc f s = .next s := by simp [accept, h]

theorem accepting_iff (s : State) : s.accepting = true ↔ s.rst = false ∧ s.busy = false := by
  simp [State.accepting]

/-- A block that does not accept ignores every operation (20_memory.md R75, 70_reset_and_hazards.md R330). -/
theorem exec_of_not_accepting (i : Instr) (s : State) (h : s.accepting = false) : exec i s = .next s := by
  cases i <;>
    simp only [exec, execNop, execEnc, execDec, execEncStart, execEncRead, execChkAck, execChkMeas, execReserved7,
      execReserved8, execReserved9, execReservedA, execReservedB, execReservedC, execReservedD, execReservedE,
      execReservedF, execWireStartMeasurement, execWireReadMeasuredValues, accept_of_not_accepting _ _ _ h]

/-- The payload of an ENC is there exactly when every entry of it has been written (70_reset_and_hazards.md R341). -/
theorem txPayload_isSome_iff (s : State) : s.txPayload.isSome = true ↔ PayloadWritten s :=
  Memory.readBlock_isSome s.mem txpBase s.txLen.toNat

theorem txPayload_length (s : State) (p : List Byte) (h : s.txPayload = some p) : p.length = s.txLen.toNat :=
  Memory.readBlock_length _ _ _ _ h

/-- What `ENC_start()` can answer. -/
theorem encBegin_cases (s : State) :
    (s.txPayload = none ∧ encBegin s = .fault .unwrittenPayload) ∨
      ∃ p, s.txPayload = some p ∧ encBegin s = .next { s with
        txCksum := cks (commandBody s.txAddr s.txCmd p)
        txq := encodeFrame s.txAddr s.txCmd p
        status := setBit s.status busyBit true
        fsm := .encEmit } := by
  unfold encBegin
  split
  · exact .inl ⟨by assumption, rfl⟩
  · exact .inr ⟨_, by assumption, rfl⟩

/-- The payload ENC_START loads (43_frame_encoder.md R163). -/
theorem txPayload_loadStart (s : State) : (loadStart s).txPayload = some [0x01#8, 0x03#8] := by
  have h0 : ((s.mem.write txpBase 0x01#8).write (txpBase + 1) 0x03#8).read txpBase = some 0x01#8 := by
    rw [Memory.read_write]; simp [Memory.read_write_same]
  have h1 : ((s.mem.write txpBase 0x01#8).write (txpBase + 1) 0x03#8).read (txpBase + 1) = some 0x03#8 :=
    Memory.read_write_same _ _ _
  simp [State.txPayload, loadStart, Memory.readBlock, h0, h1]

/-- ENC_READ sends no payload (43_frame_encoder.md R164). -/
theorem txPayload_loadRead (s : State) : (loadRead s).txPayload = some [] := rfl

/-- What a host read can do (20_memory.md R61, R71). -/
theorem hostRead_cases (a : Addr) (s : State) :
    (∃ v, hostView s a = some v ∧ hostRead a s = { s with hostRdata := v }) ∨
      (hostView s a = none ∧ hostRead a s = { s with hostRdata := Config.freeByte s.free, free := s.free + 1 }) := by
  unfold hostRead
  split
  · exact .inl ⟨_, by assumption, rfl⟩
  · exact .inr ⟨by assumption, rfl⟩

/-- The payload buffers have the entries 0..255 (10_state.md R37). -/
theorem wellFormed_txp_iff (i : Nat) : (RegName.txp i).wellFormed = true ↔ i < 256 := decide_eq_true_iff

theorem wellFormed_rxp_iff (i : Nat) : (RegName.rxp i).wellFormed = true ↔ i < 256 := decide_eq_true_iff

theorem isRxAddress_iff (n : Nat) :
    isRxAddress n = true ↔ (0x009 ≤ n ∧ n ≤ 0x00E) ∨ (0x200 ≤ n ∧ n < 0x300) := decide_eq_true_iff

/-- A read of an address that holds a value puts it on host_rdata, unless it is of the RX side while a DEC runs. -/
theorem hostRead_of_value (a : Addr) (s : State) (v : Byte) (h : isRxAddress a.toNat = true → s.fsm.isDec = false)
    (hv : regValue s a.toNat = some v) : hostRead a s = { s with hostRdata := v } := by
  have hview : hostView s a = some v := by
    unfold hostView
    split
    · rename_i hd
      rw [Bool.and_eq_true] at hd
      rw [h hd.2] at hd
      cases hd.1
    · exact hv
  simp only [hostRead, hview]

theorem hostRead_status (s : State) : hostRead (regAddr .status) s = { s with hostRdata := s.status } :=
  hostRead_of_value _ _ _ (fun h => absurd h (by decide)) rfl

theorem hostRead_errcode (s : State) : hostRead (regAddr .errcode) s = { s with hostRdata := s.errcode } :=
  hostRead_of_value _ _ _ (fun h => absurd h (by decide)) rfl

/-- The payload buffers in the register map (20_memory.md R62). -/
theorem regValue_payload (s : State) (n : Nat) (h0 : 0x100 ≤ n) (h1 : n < 0x300) : regValue s n = s.mem.read n := by
  have h : txpBase ≤ n ∧ n < payloadEnd := ⟨h0, h1⟩
  simp only [regValue, if_pos h]
  repeat rw [if_neg (by omega)]

/-- Unmapped addresses hold 0x00 (20_memory.md R72). -/
theorem regValue_unmapped (s : State) (n : Nat) (h : (0x00F ≤ n ∧ n ≤ 0x0FF) ∨ 0x300 ≤ n) : regValue s n = some 0x00#8 := by
  have hp : ¬ (txpBase ≤ n ∧ n < payloadEnd) := fun hn => by
    have h0 : 0x100 ≤ n := hn.1
    have h1 : n < 0x300 := hn.2
    omega
  simp only [regValue, if_neg hp]
  repeat rw [if_neg (by omega)]

/-- A host read changes only host_rdata and the free-value counter. -/
theorem hostRead_frame (a : Addr) (s : State) :
    hostRead a s = { s with hostRdata := (hostRead a s).hostRdata, free := (hostRead a s).free } := by
  rcases hostRead_cases a s with ⟨v, _, h⟩ | ⟨_, h⟩ <;> rw [h]

/-- The bodies of the operations: what an accepted operation does after the start actions. -/
inductive OpStarts : Instr → State → State → Prop
  | nop (u : State) : OpStarts .nop u (finish u)
  | dec (u : State) : OpStarts .dec u (decBegin u)
  | chkAck (u : State) : OpStarts .chkAck u (chkAck u)
  | chkMeas (u : State) : OpStarts .chkMeas u (chkMeas u)
  | illegal (i : Instr) (u : State) (hi : i = .reserved7 ∨ i = .reserved8 ∨ i = .reserved9 ∨ i = .reservedA ∨
      i = .reservedB ∨ i = .reservedC ∨ i = .reservedD ∨ i = .reservedE ∨ i = .reservedF) :
      OpStarts i u (raise .illegalOp 0x00#8 u)
  | enc (u t : State) (h : encBegin u = .next t) : OpStarts .enc u t
  | encStart (i : Instr) (u t : State) (hi : i = .encStart ∨ i = .wireStartMeasurement)
      (h : encBegin (loadStart u) = .next t) : OpStarts i u t
  | encRead (i : Instr) (u t : State) (hi : i = .encRead ∨ i = .wireReadMeasuredValues)
      (h : encBegin (loadRead u) = .next t) : OpStarts i u t

/-- The code that OP holds once an instruction is accepted: a wire command is sent by its block operation (30_encoding.md R101). -/
def sentOpcode : Instr → Byte
  | .wireStartMeasurement => opcode .encStart
  | .wireReadMeasuredValues => opcode .encRead
  | i => opcode i

/-- What `exec` can do when it answers a next state. -/
theorem exec_next_cases {i : Instr} {s t : State} (h : exec i s = .next t) :
    (s.accepting = false ∧ t = s) ∨
      (s.accepting = true ∧ OpStarts i (startActions (sentOpcode i) s) t) := by
  cases ha : s.accepting
  · rw [exec_of_not_accepting i s ha] at h
    exact .inl ⟨rfl, by cases h; rfl⟩
  · refine .inr ⟨rfl, ?_⟩
    cases i <;>
      simp only [exec, execNop, execEnc, execDec, execEncStart, execEncRead, execChkAck, execChkMeas, execReserved7,
        execReserved8, execReserved9, execReservedA, execReservedB, execReservedC, execReservedD, execReservedE,
        execReservedF, execWireStartMeasurement, execWireReadMeasuredValues, illegalOp,
        accept_of_accepting _ _ _ ha, Host.Outcome.next.injEq] at h
    case nop => subst h; exact .nop _
    case enc => exact .enc _ _ h
    case dec => subst h; exact .dec _
    case encStart => exact .encStart _ _ _ (.inl rfl) h
    case encRead => exact .encRead _ _ _ (.inl rfl) h
    case chkAck => subst h; exact .chkAck _
    case chkMeas => subst h; exact .chkMeas _
    case wireStartMeasurement => exact .encStart _ _ _ (.inr rfl) h
    case wireReadMeasuredValues => exact .encRead _ _ _ (.inr rfl) h
    all_goals subst h; exact .illegal _ _ (by simp)

@[simp] theorem runSteps_zero (s : State) : runSteps 0 s = .next s := rfl

theorem runSteps_succ {s t : State} (h : step s = .next t) (k : Nat) : runSteps (k + 1) s = runSteps k t := by
  simp [runSteps, h]

theorem runSteps_fault {s : State} {f : Fault} (h : step s = .fault f) (k : Nat) : runSteps (k + 1) s = .fault f := by
  simp [runSteps, h]

theorem runSteps_refused {s : State} {r : Refusal} (h : step s = .refused r) (k : Nat) :
    runSteps (k + 1) s = .refused r := by simp [runSteps, h]

/-- Runs compose. -/
theorem runSteps_add {s t : State} {j : Nat} (h : runSteps j s = .next t) (k : Nat) :
    runSteps (j + k) s = runSteps k t := by
  induction j generalizing s with
  | zero => cases h; simp
  | succ j ih =>
    rw [runSteps] at h
    split at h
    · rename_i u hu
      rw [Nat.add_right_comm, runSteps_succ hu, ih h]
    · cases h
    · cases h

/-- The host's run is this run. -/
theorem core_run_eq (k : Nat) (s : Sys2Proof.core.State) : Sys2Proof.core.run k s = runSteps k s := by
  induction k generalizing s with
  | zero => rfl
  | succ k ih =>
    have hs : Sys2Proof.core.step s = step s := rfl
    change Host.Core.run Sys2Proof.core (k + 1) s = _
    rw [Host.Core.run.eq_2]
    cases h : step s with
    | next t => rw [hs, h, runSteps_succ h]; exact ih t
    | fault f => rw [hs, h]; simp only [runSteps_fault h]; rfl
    | refused r => rw [hs, h]; simp only [runSteps_refused h]; rfl

/-- What a step can do when it answers a next state: nothing, when no input is left, or what its input does. -/
theorem step_next_cases {s t : State} (h : step s = .next t) :
    (s.inputs = [] ∧ t = s) ∨ ∃ i rest, s.inputs = i :: rest ∧ runInput i { s with inputs := rest } = .next t := by
  unfold step at h
  split at h
  · cases h; exact .inl ⟨by assumption, rfl⟩
  · exact .inr ⟨_, _, by assumption, h⟩

end Sys2Proof.Machine
end

