-- ==== Sys2Proof/Laws/PerInstr.lean ====
section
/-! SUPPORT. Facts about every instruction as syntax, one lemma per constructor: the word of an instruction decodes to it at its own
format's level. -/

namespace Sys2Proof.Laws.RoundTrip

/-- The encoder's word decodes to the instruction, with nothing left over. -/
def Statement (i : Instr) : Prop := decode i.format (encode i) = .ok i []

theorem nop : Statement .nop := by unfold Statement; decide
theorem enc : Statement .enc := by unfold Statement; decide
theorem dec : Statement .dec := by unfold Statement; decide
theorem encStart : Statement .encStart := by unfold Statement; decide
theorem encRead : Statement .encRead := by unfold Statement; decide
theorem chkAck : Statement .chkAck := by unfold Statement; decide
theorem chkMeas : Statement .chkMeas := by unfold Statement; decide
theorem reserved7 : Statement .reserved7 := by unfold Statement; decide
theorem reserved8 : Statement .reserved8 := by unfold Statement; decide
theorem reserved9 : Statement .reserved9 := by unfold Statement; decide
theorem reservedA : Statement .reservedA := by unfold Statement; decide
theorem reservedB : Statement .reservedB := by unfold Statement; decide
theorem reservedC : Statement .reservedC := by unfold Statement; decide
theorem reservedD : Statement .reservedD := by unfold Statement; decide
theorem reservedE : Statement .reservedE := by unfold Statement; decide
theorem reservedF : Statement .reservedF := by unfold Statement; decide
theorem wireStartMeasurement : Statement .wireStartMeasurement := by unfold Statement; decide
theorem wireReadMeasuredValues : Statement .wireReadMeasuredValues := by unfold Statement; decide

end Sys2Proof.Laws.RoundTrip
end

