-- ==== Sys2Proof/Tests/Slice0.lean ====
section
/-! SUPPORT. The model's own tests, with expected values from spec/95_test_vectors.md (its vector is named in each docstring), and one
witness for every statement that has hypotheses. -/

namespace Sys2Proof.Tests

open Sys2Proof Sys2Proof.Machine

/-- A field of the state a result answers. -/
def got {α : Type} (r : Result) (f : State → α) : Option α :=
  match r with
  | .next t => some (f t)
  | .fault _ => none
  | .refused _ => none

/-- Did the result stop with this fault? -/
def faulted (r : Result) (f : Fault) : Bool :=
  match r with
  | .next _ => false
  | .fault g => g == f
  | .refused _ => false

/-- Was the result a refusal with this reason? -/
def refusedAs (r : Result) (x : Refusal) : Bool :=
  match r with
  | .next _ => false
  | .fault _ => false
  | .refused y => y == x

/-- The reset state with these inputs to come. -/
def withInputs (l : List Input) : State := { State.reset with inputs := l }

/-- The reset state with this status. -/
def withStatus (x : Byte) : State := { State.reset with status := x }

/-- A running DEC in this state, at this raw byte, not in an escape pair. -/
def decoding (f : Fsm) (r : Byte) : State :=
  { State.reset with status := 0x01#8, fsm := f, rxStream := [r], inputs := [.ports offerPorts] }

/-- The packet registers after a DEC, with this status. -/
def holding (x a c st n k : Byte) : State :=
  { State.reset with status := x, rxAddr := a, rxCmd := c, rxState := st, rxLen := n, rxCksum := k }

/-- A running ENC with these bytes to emit. -/
def emitting (q : List Byte) (p : Ports) : State :=
  { State.reset with status := 0x01#8, fsm := .encEmit, txq := q, inputs := [.ports p] }

/-- The host agent has the turn at these statements. -/
def scripted (l : List HostCtl) : State := { withInputs [.turn] with host := { State.reset.host with script := l } }

/-- The turn of a running READ_MEASURED_VALUES at these statements, after so many attempts, with this status. -/
def reading (l : List HostCtl) (attempts : Nat) (x : Byte) : State :=
  { scripted l with
    status := x
    host := { State.reset.host with call := some (.readMeasuredValues none), script := l, attempt := attempts } }

/-! ## WellFormed refuses ill-formed terms -/

theorem test_ill_formed_txp : (RegName.txp 256).wellFormed = false := by decide
theorem test_ill_formed_rxp : (RegName.rxp 256).wellFormed = false := by decide
theorem test_ill_formed_wr : (HostStmt.wr (.txp 256) 0x00#8).wellFormed = false := by decide
theorem test_ill_formed_rd : (HostStmt.rd (.rxp 300)).wellFormed = false := by decide
theorem test_ill_formed_op : (HostStmt.op .wireStartMeasurement).wellFormed = false := by decide
theorem test_ill_formed_send : (HostCall.send 0x00#8 0x00#8 (List.replicate 256 0x00#8)).wellFormed = false := by
  rw [HostCall.wellFormed, List.length_replicate]; rfl
theorem test_ill_formed_script : (HostCall.script [.wait, .wr (.rxp 256) 0x00#8]).wellFormed = false := by decide
theorem test_well_formed_send : (HostCall.send 0x00#8 0x00#8 (List.replicate 255 0x00#8)).wellFormed = true := by
  rw [HostCall.wellFormed, List.length_replicate]; rfl

/-! ## Decoding, from the words of 30_encoding.md R92 and R101 -/

theorem test_decode_nop : decode .op [0b00000000#8] = .ok .nop [] := by decide
theorem test_decode_enc : decode .op [0b00000001#8] = .ok .enc [] := by decide
theorem test_decode_dec : decode .op [0b00000010#8] = .ok .dec [] := by decide
theorem test_decode_encStart : decode .op [0b00000011#8] = .ok .encStart [] := by decide
theorem test_decode_encRead : decode .op [0b00000100#8] = .ok .encRead [] := by decide
theorem test_decode_chkAck : decode .op [0b00000101#8] = .ok .chkAck [] := by decide
theorem test_decode_chkMeas : decode .op [0b00000110#8] = .ok .chkMeas [] := by decide
theorem test_decode_reserved7 : decode .op [0b00000111#8] = .ok .reserved7 [] := by decide
theorem test_decode_reserved8 : decode .op [0b00001000#8] = .ok .reserved8 [] := by decide
theorem test_decode_reserved9 : decode .op [0b00001001#8] = .ok .reserved9 [] := by decide
theorem test_decode_reservedA : decode .op [0b00001010#8] = .ok .reservedA [] := by decide
theorem test_decode_reservedB : decode .op [0b00001011#8] = .ok .reservedB [] := by decide
theorem test_decode_reservedC : decode .op [0b00001100#8] = .ok .reservedC [] := by decide
theorem test_decode_reservedD : decode .op [0b00001101#8] = .ok .reservedD [] := by decide
theorem test_decode_reservedE : decode .op [0b00001110#8] = .ok .reservedE [] := by decide
theorem test_decode_reservedF : decode .op [0b00001111#8] = .ok .reservedF [] := by decide
theorem test_decode_wireStart : decode .wireCmd [0b00000000#8] = .ok .wireStartMeasurement [] := by decide
theorem test_decode_wireRead : decode .wireCmd [0b00000011#8] = .ok .wireReadMeasuredValues [] := by decide
theorem test_decode_ignores_high_bits : decode .op [0b11110110#8, 0x55#8] = .ok .chkMeas [0x55#8] := by decide
theorem test_decode_nothing : decode .op [] = .rejected .noWord := by decide
theorem test_decode_unknown_wire : decode .wireCmd [0x01#8] = .rejected (.unknownWireCommand 0x01#8) := by decide
theorem test_decode_wire_frame_bad_checksum :
    decodeWireFrame [0x7E#8, 0x00#8, 0x03#8, 0x00#8, 0xFD#8, 0x7E#8] = none := by decide

/-! ## The codec, the checksum and the frames -/

/-- V-STUFF-7. -/
theorem test_stuff : stuffSeq [0x7E#8, 0x7D#8, 0x11#8, 0x13#8, 0x41#8] =
    [0x7D#8, 0x5E#8, 0x7D#8, 0x5D#8, 0x7D#8, 0x31#8, 0x7D#8, 0x33#8, 0x41#8] := by decide
/-- V-UNSTUFF-5. -/
theorem test_unstuff_bad : unstuff1 [0x7D#8, 0x7E#8] = .bad 0x7E#8 2 := by decide
/-- V-UNSTUFF-4. -/
theorem test_unstuff_raw_delimiter : unstuff1 [0x7E#8] = .got 0x7E#8 1 [] := by decide
/-- V-CKS-1, V-CKS-2, V-CKS-10. -/
theorem test_cks : cks [] = 0xFF#8 ∧ cks [0xFF#8, 0x01#8] = 0xFF#8 ∧ cks [0x01#8, 0x02#8, 0x03#8, 0x04#8] = 0xF5#8 := by
  decide
/-- V-ENC-4. -/
theorem test_encode_frame : encodeFrame 0x7D#8 0x11#8 [0x13#8] =
    [0x7E#8, 0x7D#8, 0x5D#8, 0x7D#8, 0x31#8, 0x01#8, 0x7D#8, 0x33#8, 0x5D#8, 0x7E#8] := by decide
/-- V-DEC-5 and V-DEC-5r. -/
theorem test_decode_frame_modes :
    let raws := [0x7E#8, 0x00#8, 0x03#8, 0x43#8, 0x00#8, 0xB9#8, 0x7E#8]
    decodeFrame true raws = .packet ⟨0x00#8, 0x03#8, 0x43#8, 0x00#8, [], 0xB9#8, 0xB9#8⟩ 7 ∧
      decodeFrame false raws = .packet ⟨0x00#8, 0x03#8, 0x03#8, 0x00#8, [], 0x03#8, 0xB9#8⟩ 7 := by decide
/-- V-DEC-12. -/
theorem test_decode_frame_stuffed :
    decodeFrame true [0x7E#8, 0x00#8, 0x7D#8, 0x31#8, 0x00#8, 0x02#8, 0x7D#8, 0x5D#8, 0x41#8, 0x2E#8, 0x7E#8] =
      .packet ⟨0x00#8, 0x11#8, 0x00#8, 0x02#8, [0x7D#8, 0x41#8], 0x2E#8, 0x2E#8⟩ 11 := by decide
/-- V-DEC-8, V-DEC-11, V-DEC-4. -/
theorem test_decode_frame_errors :
    decodeFrame true [0x7E#8, 0x00#8, 0x03#8, 0x00#8, 0x7D#8, 0x00#8, 0xFC#8, 0x7E#8] = .stuffing 0x00#8 6 ∧
      decodeFrame true [0x7E#8, 0x7E#8, 0x00#8, 0x03#8, 0x00#8, 0x00#8, 0xFC#8, 0x7E#8] = .framing true 0xFC#8 7 ∧
      decodeFrame true [0x7E#8, 0x00#8, 0x00#8, 0x00#8, 0x00#8, 0x00#8, 0x7E#8] = .checksum 0x00#8 7 := by decide
/-- V-DEC-20, V-DEC-20b, V-DEC-20c. -/
theorem test_decode_frame_short :
    decodeFrame true [0x7E#8, 0x00#8, 0x03#8, 0x00#8, 0x00#8, 0x7E#8] = .holds ∧
      decodeFrame true [0x7E#8, 0x00#8, 0x03#8, 0x00#8, 0x00#8, 0x7E#8, 0x7E#8] = .checksum 0x7E#8 7 ∧
      decodeFrame false [0x7E#8, 0x00#8, 0x03#8, 0x00#8, 0x00#8, 0x7E#8, 0x7E#8] =
        .packet ⟨0x00#8, 0x03#8, 0x03#8, 0x00#8, [], 0x03#8, 0xFC#8⟩ 7 := by decide

/-! ## One step of each operation -/

/-- V-NOP-1. -/
theorem test_nop_clears_the_error : got (exec .nop { withStatus 0x06#8 with errcode := 0x01#8 })
    (fun t => [t.status, t.errcode, t.errbyte, t.op]) = some [0x02#8, 0x00#8, 0x00#8, 0x00#8] := by decide
/-- V-NOP-2. -/
theorem test_nop_keeps_the_packet : got (exec .nop (withStatus 0x4A#8)) State.status = some 0x0A#8 := by decide
/-- V-ENC-1. -/
theorem test_enc : got (exec .enc { State.reset with
      txAddr := 0x12#8, txCmd := 0x34#8, txLen := 0x02#8, mem := [(0x100, 0x56#8), (0x101, 0x78#8)] })
    (fun t => t.txCksum :: t.txq) =
      some [0xE9#8, 0x7E#8, 0x12#8, 0x34#8, 0x02#8, 0x56#8, 0x78#8, 0xE9#8, 0x7E#8] := by decide
/-- V-ENC-13. -/
theorem test_enc_unwritten : faulted (exec .enc { State.reset with txLen := 0x01#8 }) .unwrittenPayload = true := by decide
/-- V-ENC-10. -/
theorem test_encStart : got (exec .encStart State.reset)
    (fun t => ([t.txAddr, t.txCmd, t.txLen, t.txCksum], t.txp 0, t.txp 1)) =
      some ([0x00#8, 0x00#8, 0x02#8, 0xF9#8], some 0x01#8, some 0x03#8) := by decide
/-- V-ENC-10, the last of its nine steps. -/
theorem test_encStart_last_byte : got (step (emitting [0x7E#8] takePorts)) (fun t => (t.status, t.txStream)) =
    some (0x02#8, [0x7E#8]) := by decide
/-- V-ENC-11. -/
theorem test_encRead : got (exec .encRead { State.reset with txLen := 0x02#8, mem := [(0x100, 0x56#8), (0x101, 0x78#8)] })
    (fun t => ([t.txCmd, t.txLen, t.txCksum], t.txp 0, t.txp 1)) =
      some ([0x03#8, 0x00#8, 0xFC#8], some 0x56#8, some 0x78#8) := by decide
/-- V-ERR-4, the step with tx_err. -/
theorem test_enc_transport_error :
    got (step (emitting [0x00#8, 0xFC#8, 0x7E#8] { takePorts with txErr := true })) (fun t => [t.status, t.errcode]) =
      some [0x06#8, 0x07#8] := by decide
/-- V-DEC-7. -/
theorem test_dec_bad_start : got (step (decoding .decSof 0x00#8)) (fun t => [t.status, t.errcode, t.errbyte]) =
    some [0x06#8, 0x01#8, 0x00#8] := by decide
/-- V-DEC-15. -/
theorem test_dec_bad_stop : got (step (decoding .decEof 0x7D#8)) (fun t => [t.status, t.errcode, t.errbyte]) =
    some [0x06#8, 0x11#8, 0x7D#8] := by decide
/-- V-ACK-5. -/
theorem test_chkAck_reference : got (exec .chkAck { holding 0x1A#8 0#8 0#8 0#8 0#8 0#8 with ctrl := 0x00#8 })
    (fun t => [t.status, t.errcode]) = some [0x3A#8, 0x00#8] := by decide
/-- V-ACK-8. -/
theorem test_chkAck_mode_change : got (exec .chkAck { holding 0x1A#8 0#8 0#8 0#8 0#8 0xFF#8 with ctrl := 0x00#8 })
    (fun t => [t.status, t.errcode]) = some [0x1E#8, 0x04#8] := by decide
/-- V-MEAS-6. -/
theorem test_chkMeas_sample : got (exec .chkMeas (holding 0x0A#8 0x55#8 0x00#8 0x43#8 0x28#8 0x28#8))
    (fun t => [t.status, t.errcode]) = some [0x4A#8, 0x00#8] := by decide
/-- V-MEAS-4. -/
theorem test_chkMeas_size : got (exec .chkMeas (holding 0x0A#8 0x00#8 0x03#8 0x00#8 0x29#8 0xBC#8))
    (fun t => [t.status, t.errcode, t.errbyte]) = some [0x0E#8, 0x05#8, 0x29#8] := by decide
/-- V-ERR-1. -/
theorem test_reserved : ∀ i ∈ reservedOps, got (exec i State.reset) (fun t => [t.status, t.errcode, t.errbyte, t.op]) =
    some [0x06#8, 0x08#8, 0x00#8, opcode i] := by decide
/-- S-2, by the wire command 0x00. -/
theorem test_wire_start : got (step (withInputs [.host (.command 0x00#8)])) State.txq =
    some [0x7E#8, 0x00#8, 0x00#8, 0x02#8, 0x01#8, 0x03#8, 0xF9#8, 0x7E#8] := by decide
/-- S-3, by the wire command 0x03. -/
theorem test_wire_read : got (step (withInputs [.host (.command 0x03#8)])) State.txq =
    some [0x7E#8, 0x00#8, 0x03#8, 0x00#8, 0xFC#8, 0x7E#8] := by decide

/-! ## The register space, reset and the host -/

/-- V-ERR-2. -/
theorem test_op_ignores_high_bits : got (step (withInputs [.host (.write 0x001#10 0xF3#8)])) (fun t => [t.op, t.txCksum]) =
    some [0x03#8, 0xF9#8] := by decide
/-- V-ERR-3. -/
theorem test_busy_write : got (step { emitting [0x7E#8] takePorts with inputs := [.host (.write 0x005#10 0x55#8)] })
    (fun t => [t.txAddr, t.status]) = some [0x00#8, 0x01#8] := by decide
/-- V-ERR-5. -/
theorem test_unmapped_read : got (step { withInputs [.host (.read 0x3FF#10)] with hostRdata := 0x77#8 }) State.hostRdata =
    some 0x00#8 := by decide
/-- V-ERR-5. -/
theorem test_ctrl_reserved_bits : got (step (withInputs [.host (.write 0x000#10 0xFF#8)])) State.ctrl = some 0x01#8 := by
  decide
/-- V-RST-2. -/
theorem test_reset_fall : got (step { emitting [0x02#8] takePorts with
      rst := true, txLen := 0x02#8, txStream := [0x7E#8, 0x00#8, 0x00#8], inputs := [.rst false] })
    (fun t => (t.status, t.txLen, t.fsm, t.txStream)) =
      some (0x00#8, 0x00#8, .idle, [0x7E#8, 0x00#8, 0x00#8]) := by decide
/-- A placed word is fetched by the next step (30_encoding.md R95). -/
theorem test_withFetchWord : got (step (State.reset.withFetchWord 8 0x09)) (fun t => [t.op, t.errcode]) =
    some [0x09#8, 0x08#8] := by decide
/-- V-HOST-7. -/
theorem test_no_attempts : got (hostTurn { State.reset with host := { State.reset.host with script := [.retry 0] } })
    (fun t => t.host.results) = some [.failed .retriesExhausted] := by decide
/-- V-HOST-8, V-HOST-9: the error a host reports. -/
theorem test_host_errors : hostErrorOf 0x05#8 = .payloadSize ∧ hostErrorOf 0x11#8 = .framing true := by decide
/-- S-7: 0.1 and 2.5. -/
theorem test_binary32 : binary32 0x3DCCCCCD#32 = .finite false 13421773 (-27) ∧
    binary32 0x40200000#32 = .finite false 10485760 (-22) := by decide
/-- S-7, the first two words of its payload. -/
theorem test_measWord : measWordOf [0x3F#8, 0x80#8, 0x00#8, 0x00#8, 0x40#8, 0x20#8, 0x00#8, 0x00#8] 1 = some 0x40200000#32 := by
  decide
/-- 30_encoding.md R101 names two CMD bytes. -/
theorem test_unknown_wire_command :
    refusedAs (step (withInputs [.host (.command 0x01#8)])) (.unknownWireCommand 0x01#8) = true := by decide
/-- 00_scope.md R8: no payload is longer than 255 bytes. -/
theorem test_ill_formed_call : refusedAs (step (withInputs [.call (.script [.rd (.txp 256)])])) .illFormedHostCall = true := by
  decide

/-- V-DEC-20: STATUS is read while a DEC runs, and 20_memory.md R72 during reset. -/
theorem test_read_status_during_dec :
    got (step { decoding .decEof 0x7E#8 with inputs := [.host (.read 0x002#10)] }) State.hostRdata = some 0x01#8 := by decide
theorem test_unmapped_read_in_reset :
    got (step { withInputs [.host (.read 0x00F#10)] with rst := true, hostRdata := 0x77#8 }) State.hostRdata = some 0x00#8 := by
  decide
/-- 46_host_operations.md R265: the count left out is 100. -/
theorem test_default_attempts : expandCall (.readMeasuredValues none) = [.retry 100] := by decide
/-- 46_host_operations.md R268, V-HOST-7: a call of no attempts is Failed; a DEC that has ended is still AwaitingFrame. -/
theorem test_callPhase : (reading [.retry 0] 0 0x00#8).callPhase = .failed ∧
    (reading [.check, .stmt (.op .chkMeas)] 1 0x1A#8).callPhase = .awaitingFrame ∧
    (reading [.stmt .wait, .check, .stmt (.op .dec)] 2 0x19#8).callPhase = .retrySent := by decide

/-! ## Witnesses: for each statement with hypotheses, concrete terms that meet them -/

theorem witness_OperationDecodingIsTotalOnLowNibble :
    Instr.format .reservedF = .op ∧ opcode .reservedF = 0xFF#8 &&& 0x0F#8 := by decide
theorem witness_CommandFramesParseBack : (List.replicate 255 0x7E#8).length ≤ 255 ∧ ([] : List Byte).length ≤ 255 :=
  ⟨Nat.le_of_eq List.length_replicate, by decide⟩
theorem witness_StuffedBytesAvoidReservedValues :
    0x5E#8 ∈ stuffSeq [0x7E#8] ∧ stuffSeq [0x7E#8] = [] ++ 0x7D#8 :: [0x5E#8] := by decide
theorem witness_FrameLengthsStayInBounds : (List.replicate 255 0x11#8).length ≤ 255 ∧ ([] : List Byte).length ≤ 255 :=
  ⟨Nat.le_of_eq List.length_replicate, by decide⟩
theorem witness_StepRunsTheWrittenOperation :
    (HostActs (withInputs [.host (.write 0x001#10 0xFF#8)]) (.write 0x001#10 0xFF#8) [] ∧
      decode .op [0xFF#8] = .ok .reservedF []) ∧
    (HostActs (withInputs [.host (.command 0x03#8)]) (.command 0x03#8) [] ∧
      decode .wireCmd [0x03#8] = .ok .wireReadMeasuredValues []) ∧
    decodeTableWord (7 + 1) 0x06 = some .chkMeas := ⟨⟨rfl, rfl⟩, ⟨rfl, rfl⟩, rfl⟩
theorem witness_HostTurnRunsTheScriptedOperation :
    (∃ s : State, s.inputs = .turn :: [] ∧ s.host.script = .stmt (.op .dec) :: [.check] ∧ Instr.dec.format = .op) ∧
    (∃ s : State, s.inputs = .turn :: [] ∧ s.host.script = .stmt (.wr (.txp 255) 0x55#8) :: [] ∧
      regAddr (.txp 255) ≠ 0x001#10) :=
  ⟨⟨scripted [.stmt (.op .dec), .check], rfl, rfl, rfl⟩,
    ⟨scripted [.stmt (.wr (.txp 255) 0x55#8)], rfl, rfl, by decide⟩⟩
/-- For NopEndsAtOnceWithoutError, EncStartLoadsAndQueuesTheFixedFrame, EncReadLoadsAndQueuesTheFixedFrame and
WireCommandsAreSentByTheirBlockOperation, whose only premise is a block that accepts. -/
theorem witness_accepting : State.reset.accepting = true ∧ (withStatus 0xFE#8).accepting = true := by decide
/-- A payload of one written entry. -/
theorem witness_EncQueuesTheHeldFrame :
    ∃ s : State, s.accepting = true ∧ PayloadWritten s ∧ s.txLen = 0x01#8 :=
  ⟨{ State.reset with txLen := 0x01#8, mem := [(0x100, 0x55#8)] }, rfl, by unfold PayloadWritten; decide, rfl⟩
theorem witness_EncOfUnwrittenPayloadFaults : ∃ s : State, s.accepting = true ∧ ¬ PayloadWritten s :=
  ⟨{ State.reset with txLen := 0x01#8 }, rfl, by unfold PayloadWritten; decide⟩
theorem witness_DecStartsWaitingForTheDelimiter : State.reset.accepting = true ∧
    ∃ s : State, s.busy = true ∧ HostActs s (.write 0x000#10 0x00#8) [] :=
  ⟨rfl, { decoding .decSof 0x7E#8 with inputs := [.host (.write 0x000#10 0x00#8)] }, rfl, rfl⟩
theorem witness_ReservedCodesEndWithIllegalOp :
    Instr.reserved7 ∈ reservedOps ∧ Instr.reservedF ∈ reservedOps ∧ State.reset.accepting = true ∧
      SequencerSound State.reset := by unfold SequencerSound; decide
theorem witness_ChkAckDecidesTheAcknowledgement :
    (State.reset.accepting = true ∧ State.reset.rxValid = false) ∧
    (∃ s : State, s.accepting = true ∧ s.rxValid = true ∧ s.rxAddr = 0x00#8 ∧ s.rxCmd = 0x00#8 ∧ s.rxState = 0x00#8 ∧
      s.rxLen = 0x00#8 ∧ (bit s.ctrl 0 = false → s.rxCksum = 0x00#8)) ∧
    (∃ s : State, s.accepting = true ∧ s.rxValid = true ∧
      ¬ (s.rxAddr = 0x00#8 ∧ s.rxCmd = 0x00#8 ∧ s.rxState = 0x00#8 ∧ s.rxLen = 0x00#8 ∧
        (bit s.ctrl 0 = false → s.rxCksum = 0x00#8))) :=
  ⟨by decide, ⟨holding 0x1A#8 0#8 0#8 0#8 0#8 0xFF#8, by decide⟩, ⟨holding 0x1A#8 0#8 3#8 0#8 0#8 0xFC#8, by decide⟩⟩
theorem witness_ChkMeasClassifiesThePayload :
    (State.reset.accepting = true ∧ State.reset.rxValid = false) ∧
    (∀ n ∈ [0#8, 39#8, 40#8, 41#8, 255#8],
      (holding 0x0A#8 0#8 0#8 0#8 n 0#8).accepting = true ∧ (holding 0x0A#8 0#8 0#8 0#8 n 0#8).rxValid = true ∧
        (holding 0x0A#8 0#8 0#8 0#8 n 0#8).rxLen = n) := by decide
theorem witness_ChecksChangeOnlyTheReport :
    Instr.chkMeas ∈ [Instr.chkAck, Instr.chkMeas] ∧ (withStatus 0x4A#8).accepting = true ∧
      SequencerSound (withStatus 0x4A#8) := by unfold SequencerSound; decide
theorem witness_EncoderIgnoresTheDecoderMode :
    Instr.encRead ∈ [Instr.enc, Instr.encStart, Instr.encRead] ∧ (emitting [0x7E#8] takePorts).fsm = .encEmit := by decide
/-- For ExecKeepsMemoryButForEncStart and ExecKeepsRegistersItDoesNotName. -/
theorem witness_ExecKeeps :
    exec .encStart State.reset = .next (startSent State.reset) ∧ exec .nop State.reset = .next (endedOk .nop 0#8 State.reset) ∧
      State.reset.accepting = true := ⟨rfl, rfl, rfl⟩
theorem witness_BusyBlockIgnoresWrites :
    ∃ s : State, s.busy = true ∧ HostActs s (.write 0x001#10 0x02#8) [] ∧
      ∃ t : State, t.busy = true ∧ HostActs t (.read 0x002#10) [] :=
  ⟨{ emitting [0x7E#8] takePorts with inputs := [.host (.write 0x001#10 0x02#8)] }, rfl, rfl,
    { emitting [0x7E#8] takePorts with inputs := [.host (.read 0x002#10)] }, rfl, rfl⟩
theorem witness_WritableRegistersTakeTheWrittenByte :
    (∀ a ∈ [0x000#10, 0x005#10, 0x006#10, 0x007#10, 0x100#10, 0x1FF#10],
      (withInputs [.host (.write a 0x55#8)]).accepting = true ∧
        HostActs (withInputs [.host (.write a 0x55#8)]) (.write a 0x55#8) []) ∧
    BitVec.ofNat 10 (0x100 + 0) = 0x100#10 ∧ BitVec.ofNat 10 (0x100 + 255) = 0x1FF#10 := by
  unfold HostActs; decide
theorem witness_UnmappedAndReadOnlyAddressesIgnoreWrites :
    (∀ a ∈ [0x002#10, 0x004#10, 0x008#10, 0x0FF#10, 0x200#10, 0x3FF#10],
      ((0x002 ≤ a.toNat ∧ a.toNat ≤ 0x004) ∨ (0x008 ≤ a.toNat ∧ a.toNat ≤ 0x0FF) ∨ 0x200 ≤ a.toNat) ∧
        HostActs (withInputs [.host (.write a 0x55#8)]) (.write a 0x55#8) []) ∧
    (∀ a ∈ [0x00F#10, 0x0FF#10, 0x300#10, 0x3FF#10],
      ((0x00F ≤ a.toNat ∧ a.toNat ≤ 0x0FF) ∨ 0x300 ≤ a.toNat) ∧
        HostActs (withInputs [.host (.read a)]) (.read a) []) := by unfold HostActs; decide
/-- Each name, on an idle block that holds the payload entries named, and the names of the control and TX side while a DEC runs. -/
theorem witness_ReadsReturnTheNamedRegister :
    (∀ n ∈ [RegName.ctrl, .op, .status, .errcode, .errbyte, .txAddr, .txCmd, .txLen, .txCksum, .rxAddr, .rxCmd, .rxState, .rxLen,
        .rxCksum, .rxCksumCalc, .txp 0, .txp 255, .rxp 0, .rxp 255],
      n.wellFormed = true ∧ HostActs (withInputs [.host (.read (regAddr n))]) (.read (regAddr n)) [] ∧
        (withInputs [.host (.read (regAddr n))]).fsm.isDec = false) ∧
    (∃ s : State, s.txp 0 = some 0x11#8 ∧ s.txp 255 = some 0x22#8 ∧ s.rxp 0 = some 0x33#8 ∧ s.rxp 255 = some 0x44#8 ∧
      s.fsm.isDec = false) ∧
    (∀ n ∈ [RegName.ctrl, .op, .status, .errcode, .errbyte, .txAddr, .txCmd, .txLen, .txCksum, .txp 0],
      HostActs { decoding .decSof 0x7E#8 with inputs := [.host (.read (regAddr n))] } (.read (regAddr n)) []) :=
  ⟨by unfold HostActs; decide,
    ⟨{ State.reset with mem := [(0x100, 0x11#8), (0x1FF, 0x22#8), (0x200, 0x33#8), (0x2FF, 0x44#8)] }, by decide⟩,
    by unfold HostActs; decide⟩
/-- The next step of `decoding f r` offers `r`. -/
theorem offers (f : Fsm) (r : Byte) : OffersByte (decoding f r) r [] [] := ⟨offerPorts, ⟨rfl, rfl⟩, rfl, rfl, rfl⟩
/-- The same inside an escape pair. -/
theorem offers_escaped (f : Fsm) (r : Byte) : OffersByte { decoding f r with esc := true } r [] [] :=
  ⟨offerPorts, ⟨rfl, rfl⟩, rfl, rfl, rfl⟩
theorem witness_LeadingDelimiterOpensTheFrame :
    ((decoding .decSof 0x7E#8).fsm = .decSof ∧ OffersByte (decoding .decSof 0x7E#8) 0x7E#8 [] []) ∧
      (decoding .decSof 0x00#8).fsm = .decSof ∧ OffersByte (decoding .decSof 0x00#8) 0x00#8 [] [] :=
  ⟨⟨rfl, offers _ _⟩, rfl, offers _ _⟩
theorem witness_EscapePairsAreReadInTwoSteps :
    ((decoding .decAddr 0x7D#8).fsm.isBody = true ∧ (decoding .decAddr 0x7D#8).esc = false ∧
      OffersByte (decoding .decAddr 0x7D#8) 0x7D#8 [] []) ∧
    (decoding .decCks 0x7E#8).fsm.isBody = true ∧ OffersByte { decoding .decCks 0x7E#8 with esc := true } 0x7E#8 [] [] :=
  ⟨⟨rfl, rfl, offers _ _⟩, rfl, offers_escaped _ _⟩
/-- For HeaderBytesAreStored, StateByteIsStoredOrAliased, PayloadBytesFillTheBuffer and ChecksumByteIsKeptAndComputed: each
field state, each of the two ways to deliver, the values 0 and 255. -/
theorem witness_Delivers :
    (∀ f : Fsm, OffersByte (decoding f 0x00#8) 0x00#8 [] [] ∧ Delivers (decoding f 0x00#8) 0x00#8 0x00#8) ∧
    (∀ f : Fsm, OffersByte (decoding f 0xFF#8) 0xFF#8 [] [] ∧ Delivers (decoding f 0xFF#8) 0xFF#8 0xFF#8) ∧
    (∀ f : Fsm, OffersByte { decoding f 0x5E#8 with esc := true } 0x5E#8 [] [] ∧
      Delivers { decoding f 0x5E#8 with esc := true } 0x5E#8 0x7E#8) ∧
    (decoding .decState 0x00#8).strict = true ∧ ({ decoding .decState 0x00#8 with strict := false } : State).strict = false :=
  ⟨fun f => ⟨offers _ _, .inl ⟨rfl, by decide, rfl⟩⟩, fun f => ⟨offers _ _, .inl ⟨rfl, by decide, rfl⟩⟩,
    fun f => ⟨offers_escaped _ _, .inr ⟨rfl, by decide⟩⟩, rfl, rfl⟩
/-- The three ends of a frame, and the two modes at a bad checksum. -/
theorem witness_TrailingDelimiterEndsTheFrame :
    ((decoding .decEof 0x7D#8).fsm = .decEof ∧ OffersByte (decoding .decEof 0x7D#8) 0x7D#8 [] []) ∧
    (∃ s : State, s.fsm = .decEof ∧ OffersByte s 0x7E#8 [] [] ∧ s.strict = true ∧ s.ckraw ≠ s.rxCksumCalc) ∧
    (∃ s : State, s.fsm = .decEof ∧ OffersByte s 0x7E#8 [] [] ∧ (s.strict = true → s.ckraw = s.rxCksumCalc)) :=
  ⟨⟨rfl, offers _ _⟩,
    ⟨{ decoding .decEof 0x7E#8 with ckraw := 0x01#8 }, rfl, ⟨offerPorts, ⟨rfl, rfl⟩, rfl, rfl, rfl⟩, rfl, by decide⟩,
    ⟨decoding .decEof 0x7E#8, rfl, offers _ _, fun _ => rfl⟩⟩
theorem witness_DecHoldsOrEndsWithTransport :
    ∀ p : Ports, ({ decoding .decSof 0x7E#8 with inputs := [.ports p], rxStream := [] } : State).fsm.isDec = true ∧
      BlockSteps { decoding .decSof 0x7E#8 with inputs := [.ports p], rxStream := [] } p [] := fun _ => ⟨rfl, rfl, rfl⟩
theorem witness_EncEmitsOneByteAStep :
    ∀ (p : Ports) (q : List Byte), (emitting (0x7E#8 :: q) p).fsm = .encEmit ∧ (emitting (0x7E#8 :: q) p).txq = 0x7E#8 :: q ∧
      BlockSteps (emitting (0x7E#8 :: q) p) p [] := fun _ _ => ⟨rfl, rfl, rfl, rfl⟩
theorem witness_EncSendsItsWholeFrame :
    ∃ s : State, s.accepting = true ∧ s.txPayload = some [] ∧
      s.inputs = .host (.write 0x001#10 0x01#8) :: (portSteps (encodeFrame s.txAddr s.txCmd []).length takePorts ++ []) :=
  ⟨withInputs (.host (.write 0x001#10 0x01#8) :: (portSteps 6 takePorts ++ [])), rfl, rfl, rfl⟩
theorem witness_CorrectResponseFramesAreDecoded :
    ∃ s : State, s.accepting = true ∧ s.rxStream = responseFrame 0x00#8 0x03#8 0x00#8 [0x7D#8] ++ [0x55#8] ∧
      s.inputs = .host (.write 0x001#10 0x02#8) ::
        (portSteps (responseFrame 0x00#8 0x03#8 0x00#8 [0x7D#8]).length offerPorts ++ []) :=
  ⟨{ withInputs (.host (.write 0x001#10 0x02#8) ::
        (portSteps (responseFrame 0x00#8 0x03#8 0x00#8 [0x7D#8]).length offerPorts ++ [])) with
      rxStream := responseFrame 0x00#8 0x03#8 0x00#8 [0x7D#8] ++ [0x55#8] }, rfl, rfl, rfl⟩
/-- V-DEC-1, V-DEC-7, V-DEC-9, V-DEC-10 and V-DEC-20: each outcome of `decodeFrame` occurs, from a block that accepts. -/
theorem witness_DecRunsAgreeWithDecodeFrame :
    (withInputs (.host (.write 0x001#10 0x02#8) :: (portSteps 7 offerPorts ++ []))).accepting = true ∧
    decodeFrame true [0x7E#8, 0x00#8, 0x03#8, 0x00#8, 0x00#8, 0xFC#8, 0x7E#8] =
      .packet ⟨0x00#8, 0x03#8, 0x00#8, 0x00#8, [], 0xFC#8, 0xFC#8⟩ 7 ∧
    decodeFrame true [0x00#8, 0x7E#8] = .framing false 0x00#8 1 ∧
    decodeFrame true [0x7E#8, 0x00#8, 0x03#8, 0x00#8, 0x7D#8, 0x7E#8] = .stuffing 0x7E#8 6 ∧
    decodeFrame true [0x7E#8, 0x00#8, 0x03#8, 0x00#8, 0x00#8, 0x00#8, 0x7E#8] = .checksum 0x00#8 7 ∧
    decodeFrame true [0x7E#8, 0x00#8, 0x03#8, 0x00#8, 0x00#8, 0x7E#8] = .holds := by decide
/-- A DEC at the second of its two payload bytes meets the invariant, and steps. -/
def midPayload : State :=
  { decoding .decData 0x41#8 with op := 0x02#8, rxLen := 0x02#8, idx := 0x01#8, mem := [(0x200, 0x7D#8)] }
theorem witness_EveryStepKeepsTheInvariant : Inv midPayload ∧ ∃ t : State, step midPayload = .next t :=
  ⟨⟨by unfold ReservedBitsZero; decide, by unfold SequencerSound; decide, by unfold ReportSound legalErrcodes; decide,
    ⟨by decide, by decide, by decide, by decide, by decide⟩, ⟨fun _ => ⟨by decide, by decide⟩, by decide⟩, by decide⟩,
    ⟨_, rfl⟩⟩
theorem witness_ResetInputLeavesTheResetState :
    (withInputs [.rst true]).inputs = .rst true :: [] ∧
    (∀ x ∈ [Input.host (.write 0x001#10 0x02#8), .host (.command 0x00#8), .host (.command 0x03#8), .ports takePorts, .rst false],
      ({ withInputs [x] with rst := true } : State).rst = true ∧ ({ withInputs [x] with rst := true } : State).inputs = [x]) := by
  decide
theorem witness_OnlyDecTouchesTheHeldPacket :
    ∃ s t : State, step s = .next t ∧ s.fsm.isDec = false ∧ t.fsm.isDec = false ∧
      ∀ rest, s.inputs = .rst false :: rest → s.rst = false :=
  ⟨withInputs [.host (.write 0x001#10 0x00#8)], _, rfl, rfl, rfl, fun _ _ => rfl⟩
theorem witness_StreamsMoveOneByteInOrder :
    (∃ t : State, step (decoding .decAddr 0x00#8) = .next t) ∧ (∃ t : State, step (withInputs [.rx [0x7E#8]]) = .next t) ∧
      ∃ t : State, step (emitting [0x7E#8] takePorts) = .next t := ⟨⟨_, rfl⟩, ⟨_, rfl⟩, ⟨_, rfl⟩⟩
/-- By a write of OP, by a turn at `op ENC`, and by a turn at a `wr` to OP. -/
theorem witness_OnlyEncOfUnwrittenPayloadFaults :
    (∃ s : State, s.inputs = [.host (.write 0x001#10 0x01#8)] ∧ step s = .fault .unwrittenPayload) ∧
    (∃ s : State, s.inputs = [.turn] ∧ s.host.script = .stmt (.op .enc) :: [] ∧ step s = .fault .unwrittenPayload) ∧
    (∃ s : State, s.inputs = [.turn] ∧ s.host.script = .stmt (.wr .op 0xF1#8) :: [] ∧ step s = .fault .unwrittenPayload) :=
  ⟨⟨{ withInputs [.host (.write 0x001#10 0x01#8)] with txLen := 0x01#8 }, rfl, rfl⟩,
    ⟨{ scripted [.stmt (.op .enc)] with txLen := 0x01#8 }, rfl, rfl, rfl⟩,
    ⟨{ scripted [.stmt (.wr .op 0xF1#8)] with txLen := 0x01#8 }, rfl, rfl, rfl⟩⟩
/-- S-7, its fifth word. -/
theorem witness_MeasurementWordsAreBigEndian :
    ∃ s : State, s.rxp (4 * 4) = some 0x3D#8 ∧ s.rxp (4 * 4 + 1) = some 0xCC#8 ∧ s.rxp (4 * 4 + 2) = some 0xCC#8 ∧
      s.rxp (4 * 4 + 3) = some 0xCD#8 :=
  ⟨{ State.reset with mem := [(0x210, 0x3D#8), (0x211, 0xCC#8), (0x212, 0xCC#8), (0x213, 0xCD#8)] }, by decide⟩
theorem witness_MeasurementWordsReadAsBinary32 :
    ∀ e ∈ [0, 1, 254, 255], e < 256 ∧ (0 : Nat) < 0x800000 ∧ 0x7FFFFF < 0x800000 := by decide
theorem witness_MeasurementReturnsTheTenWordsInOrder :
    ∃ s : State, s.fsm.isDec = false ∧ s.host.script = returnScript ∧ s.host.got = [] ∧
      (∀ i, i < 40 → (s.rxp i).isSome = true) ∧ s.inputs = List.replicate 41 .turn ++ [] :=
  ⟨{ withInputs (List.replicate 41 .turn ++ []) with
      mem := (List.range 40).map (fun i => (0x200 + i, 0x55#8))
      host := { State.reset.host with script := returnScript } }, rfl, rfl, rfl, by decide, rfl⟩
theorem witness_RetryLoopStopsAtTheCeiling :
    ∃ s : State, s.inputs = .turn :: [] ∧ s.host.script = .retry 1 :: [] ∧ s.host.attempt < 1 ∧
      ∃ u : State, u.inputs = .turn :: [] ∧ u.host.script = .retry 1 :: [] ∧ 1 ≤ u.host.attempt :=
  ⟨scripted [.retry 1], rfl, rfl, by decide, reading [.retry 1] 1 0x00#8, rfl, rfl, by decide⟩
theorem witness_HostTestsFollowTheStatus :
    ∀ c ∈ [HostCtl.stmt .wait, .check, .fail, .ifSample, .succeed],
      (scripted [c, .succeed]).inputs = .turn :: [] ∧ (scripted [c, .succeed]).host.script = c :: [.succeed] := by decide
theorem witness_WaitingCallsStartWithTheirExpansion :
    ∀ c ∈ [HostCall.send 0x00#8 0x11#8 [0x7E#8, 0x13#8], .send 0x00#8 0x11#8 [], .recv, .startMeasurement,
        .readMeasuredValues none, .readMeasuredValues (some 0), .script [.wait]],
      ({ withInputs [.turn] with host := { State.reset.host with waiting := [c] } } : State).inputs = .turn :: [] ∧
      ({ withInputs [.turn] with host := { State.reset.host with waiting := [c] } } : State).host.script = [] ∧
      ({ withInputs [.turn] with host := { State.reset.host with waiting := [c] } } : State).host.waiting = c :: [] := by
  decide
/-- Each place of the script, the attempts at both sides of the ceiling, and each way a call ends. -/
theorem witness_CallPhasesFollowTheOperations :
    (∀ l ∈ [[HostCtl.stmt (.op .encRead)], [.stmt .wait, .check, .stmt (.op .dec)], [.stmt .wait, .check, .stmt (.op .chkMeas)],
        [.check, .succeed], [.check, .ifSample, .retry 1], [.retry 0], []], ∀ k ∈ [0, 1, 2],
      (reading l k 0x02#8).host.call = some (.readMeasuredValues none) ∧ (reading l k 0x02#8).host.script = l ∧
        (reading l k 0x02#8).busy = false) ∧
    (∀ r ∈ [HostResult.success, .failed .retriesExhausted],
      ({ State.reset.host with results := [r] } : HostAgent).results = [] ++ [r]) := by decide
theorem witness_StartMeasurementSucceedsOnTheAcknowledgement :
    ∃ s : State, s.accepting = true ∧ bit s.ctrl 0 = true ∧ s.host.script = [] ∧
      s.host.waiting = .startMeasurement :: [] ∧
      s.rxStream = [0x7E#8, 0x00#8, 0x00#8, 0x00#8, 0x00#8, 0xFF#8, 0x7E#8] ++ [] ∧
      s.inputs = [.turn, .turn] ++ portSteps 8 takePorts ++ [.turn, .turn, .turn] ++ portSteps 7 offerPorts ++
        [.turn, .turn, .turn, .turn, .turn] ++ [] :=
  ⟨{ withInputs ([.turn, .turn] ++ portSteps 8 takePorts ++ [.turn, .turn, .turn] ++ portSteps 7 offerPorts ++
        [.turn, .turn, .turn, .turn, .turn] ++ []) with
      rxStream := [0x7E#8, 0x00#8, 0x00#8, 0x00#8, 0x00#8, 0xFF#8, 0x7E#8]
      host := { State.reset.host with waiting := [.startMeasurement] } }, rfl, rfl, rfl, rfl, rfl, rfl⟩

end Sys2Proof.Tests
end

section
/-! The family 10_state.md: what a start step changes and keeps (O23, O24), that only a DEC touches the held packet (O45), and the
host's writes of the writable registers (O26). -/

namespace Sys2Proof.Machine

/-! ## The payload buffers after a store -/

/-- A store below RXP reaches no entry of it. -/
theorem rxp_write_below (m : Memory) {a : Nat} (v : Byte) (i : Nat) (h : a < rxpBase) :
    (m.write a v).read (rxpBase + i) = m.read (rxpBase + i) :=
  Memory.read_write_other m a (rxpBase + i) v (by omega)

/-- ENC_START stores TXP[0] and TXP[1] (43_frame_encoder.md R163). -/
theorem read_loadStart (s : State) (a : Nat) :
    (loadStart s).mem.read a =
      if a = 0x101 then some 0x03#8 else if a = 0x100 then some 0x01#8 else s.mem.read a := by
  simp only [loadStart, Memory.read_write, txpBase]

/-! ## The effect of a start step

A start step writes the report and the sequencer, and, when it sends or is DEC, a few fields more. `WritesReport` names the first
part, `StartEffect` the whole, and `exec_startEffect` ties both to `exec`. -/

/-- Only the report (OP, STATUS, ERRCODE, ERRBYTE) and the sequencer (h.fsm, h.esc, h.txq) are written, and of STATUS the bits
RX_VALID, EMPTY and the reserved bit 7 stay (30_encoding.md R95, 60_exceptions.md R294, R295). -/
inductive WritesReport (s : State) : State → Prop
  | intro (op status errcode errbyte : Byte) (fsm : Fsm) (esc : Bool) (txq : List Byte)
      (hbits : ∀ j, j = rxValidBit ∨ j = emptyBit ∨ j = 7 → bit status j = bit s.status j) :
      WritesReport s { s with
        op := op, status := status, errcode := errcode, errbyte := errbyte, fsm := fsm, esc := esc, txq := txq }

theorem WritesReport.trans {s t u : State} (hst : WritesReport s t) (htu : WritesReport t u) : WritesReport s u := by
  obtain ⟨_, _, _, _, _, _, _, hs⟩ := hst
  obtain ⟨_, _, _, _, _, _, _, ht⟩ := htu
  exact ⟨_, _, _, _, _, _, _, fun j hj => (ht j hj).trans (hs j hj)⟩

theorem writesReport_startActions (opc : Byte) (s : State) : WritesReport s (startActions opc s) :=
  ⟨_, _, _, _, _, _, _, by rintro j (rfl | rfl | rfl) <;> simp [rxValidBit, emptyBit]⟩

theorem writesReport_finish (s : State) : WritesReport s (finish s) :=
  ⟨_, _, _, _, _, _, _, by rintro j (rfl | rfl | rfl) <;> simp [rxValidBit, emptyBit]⟩

theorem writesReport_raise (e : ErrorKind) (info : Byte) (s : State) : WritesReport s (raise e info s) :=
  ⟨_, _, _, _, _, _, _, by rintro j (rfl | rfl | rfl) <;> simp [rxValidBit, emptyBit]⟩

/-- A check sets ACK or SAMPLE, which are none of the bits that stay (10_state.md R26). -/
theorem writesReport_mark (k : Nat) (hk : k = ackBit ∨ k = sampleBit) (s : State) :
    WritesReport s { s with status := setBit s.status k true } := by
  refine ⟨_, _, _, _, _, _, _, ?_⟩
  rcases hk with rfl | rfl <;> rintro j (rfl | rfl | rfl) <;> simp [rxValidBit, emptyBit, ackBit, sampleBit]

/-- CHK_ACK ends in each of its branches by `raise` or `finish()` (45_response_check.md R230). -/
theorem writesReport_chkAck (s : State) : WritesReport s (chkAck s) := by
  unfold chkAck
  split
  · exact writesReport_raise ..
  · split
    · exact (writesReport_mark ackBit (.inl rfl) s).trans (writesReport_finish _)
    · exact writesReport_raise ..

/-- CHK_MEAS ends in each of its branches by `raise` or `finish()` (45_response_check.md R233). -/
theorem writesReport_chkMeas (s : State) : WritesReport s (chkMeas s) := by
  unfold chkMeas
  split
  · exact writesReport_raise ..
  · split
    · exact writesReport_finish s
    · split
      · exact (writesReport_mark sampleBit (.inr rfl) s).trans (writesReport_finish _)
      · exact writesReport_raise ..

/-- `ENC_start()` writes TX_CKSUM beside the report and the sequencer (43_frame_encoder.md R161). -/
theorem encBegin_writes {s t : State} (h : encBegin s = .next t) : ∃ k, WritesReport { s with txCksum := k } t := by
  rcases encBegin_cases s with ⟨_, hf⟩ | ⟨p, _, hn⟩
  · rw [hf] at h; cases h
  · rw [hn] at h; cases h
    refine ⟨cks (commandBody s.txAddr s.txCmd p), _, _, _, _, _, _, _, ?_⟩
    rintro j (rfl | rfl | rfl) <;> simp [rxValidBit, emptyBit, busyBit]

/-- The operations that send a frame: ENC, its two fixed forms and the wire commands they send (43_frame_encoder.md R161, R163, R164;
30_encoding.md R101). -/
def sendingOps : List Instr := [.enc, .encStart, .encRead, .wireStartMeasurement, .wireReadMeasuredValues]

/-- The effect of a start step on the state `s` it is asked for in. -/
inductive StartEffect (s : State) : Instr → State → Prop
  | ignored (i : Instr) (ha : s.accepting = false) : StartEffect s i s
  | ended (i : Instr) (t : State) (hi : i ∉ sendingOps) (hw : WritesReport s t) : StartEffect s i t
  | dec : StartEffect s .dec (decBegin (startActions (opcode .dec) s))
  | enc (k : Byte) (t : State) (hw : WritesReport { s with txCksum := k } t) : StartEffect s .enc t
  | encStart (i : Instr) (k : Byte) (t : State) (hi : i = .encStart ∨ i = .wireStartMeasurement)
      (ha : s.accepting = true) (hw : WritesReport { loadStart s with txCksum := k } t) : StartEffect s i t
  | encRead (i : Instr) (k : Byte) (t : State) (hi : i = .encRead ∨ i = .wireReadMeasuredValues)
      (hw : WritesReport { loadRead s with txCksum := k } t) : StartEffect s i t

theorem exec_startEffect {i : Instr} {s t : State} (h : exec i s = .next t) : StartEffect s i t := by
  rcases exec_next_cases h with ⟨ha, rfl⟩ | ⟨ha, hop⟩
  · exact .ignored i ha
  · have hstart := writesReport_startActions (sentOpcode i) s
    cases hop with
    | nop => exact .ended _ _ (by decide) (hstart.trans (writesReport_finish _))
    | dec => exact .dec
    | chkAck => exact .ended _ _ (by decide) (hstart.trans (writesReport_chkAck _))
    | chkMeas => exact .ended _ _ (by decide) (hstart.trans (writesReport_chkMeas _))
    | illegal _ _ hi =>
      refine .ended _ _ ?_ (hstart.trans (writesReport_raise ..))
      rcases hi with rfl | rfl | rfl | rfl | rfl | rfl | rfl | rfl | rfl <;> decide
    | enc _ _ he =>
      obtain ⟨k, hw⟩ := encBegin_writes he
      exact .enc k _ ((writesReport_startActions _ { s with txCksum := k }).trans hw)
    | encStart _ _ _ hi he =>
      obtain ⟨k, hw⟩ := encBegin_writes he
      exact .encStart _ k _ hi ha ((writesReport_startActions _ { loadStart s with txCksum := k }).trans hw)
    | encRead _ _ _ hi he =>
      obtain ⟨k, hw⟩ := encBegin_writes he
      exact .encRead _ k _ hi ((writesReport_startActions _ { loadRead s with txCksum := k }).trans hw)

theorem WritesReport.mem_eq {s t : State} (h : WritesReport s t) : t.mem = s.mem := by
  cases h; rfl

/-- Only an accepted ENC_START, or the wire command it sends, stores to memory on its start step (43_frame_encoder.md R163). -/
theorem exec_mem {i : Instr} {s t : State} (h : exec i s = .next t) :
    t.mem = if (i = .encStart ∨ i = .wireStartMeasurement) ∧ s.accepting = true then (loadStart s).mem else s.mem := by
  cases exec_startEffect h with
  | ignored _ ha => simp [ha]
  | ended _ _ hi hw =>
    have hne : ¬ (i = .encStart ∨ i = .wireStartMeasurement) := by
      rintro (rfl | rfl) <;> exact hi (by decide)
    simp [hne, hw.mem_eq]
  | dec => simp
  | enc _ _ hw => simp [hw.mem_eq]
  | encStart _ _ _ hi ha hw => rw [if_pos ⟨hi, ha⟩, hw.mem_eq]
  | encRead _ _ _ hi hw => rcases hi with rfl | rfl <;> simp [hw.mem_eq, loadRead]

/-- Settles O23: what memory holds after a start step is `exec_mem`, and what ENC_START stores is `read_loadStart`. -/
theorem execKeepsMemoryButForEncStart : Obligations.ExecKeepsMemoryButForEncStart := by
  intro i s t h
  rw [exec_mem h]
  refine ⟨fun a hne => ?_, fun hi ha => ?_⟩
  · split
    next hst =>
      obtain ⟨h0, h1⟩ := hne hst.1
      rw [read_loadStart, if_neg h1, if_neg h0]
    next => rfl
  · rw [if_pos ⟨hi, ha⟩, read_loadStart, read_loadStart]
    exact ⟨rfl, rfl⟩

/-! ## What a start step keeps -/

/-- What no start step writes: CTRL, the RX registers, the ports, both streams, the host, the inputs and STATUS[7]
(10_state.md R42). -/
structure StartFrame where
  ctrl : Byte
  rxAddr : Byte
  rxCmd : Byte
  rxState : Byte
  rxLen : Byte
  rxCksum : Byte
  rxCksumCalc : Byte
  rst : Bool
  hostRdata : Byte
  rxStream : List Byte
  txStream : List Byte
  host : HostAgent
  inputs : List Input
  statusTop : Bool

/-- The fields of a state that no start step writes. -/
def State.startFrame (s : State) : StartFrame where
  ctrl := s.ctrl
  rxAddr := s.rxAddr
  rxCmd := s.rxCmd
  rxState := s.rxState
  rxLen := s.rxLen
  rxCksum := s.rxCksum
  rxCksumCalc := s.rxCksumCalc
  rst := s.rst
  hostRdata := s.hostRdata
  rxStream := s.rxStream
  txStream := s.txStream
  host := s.host
  inputs := s.inputs
  statusTop := bit s.status 7

theorem WritesReport.startFrame_eq {s t : State} (h : WritesReport s t) : t.startFrame = s.startFrame := by
  obtain ⟨_, _, _, _, _, _, _, hbits⟩ := h
  simp [State.startFrame, hbits]

theorem exec_startFrame {i : Instr} {s t : State} (h : exec i s = .next t) : t.startFrame = s.startFrame := by
  cases exec_startEffect h with
  | ignored => rfl
  | ended _ _ _ hw => exact hw.startFrame_eq
  | dec => simp [State.startFrame, busyBit]
  | enc _ _ hw => exact hw.startFrame_eq
  | encStart _ _ _ _ _ hw => exact hw.startFrame_eq
  | encRead _ _ _ _ hw => exact hw.startFrame_eq

/-- The held packet: RX_VALID, EMPTY, the RX registers and RXP (10_state.md R22, R28, R29, R35). -/
structure HeldPacket where
  valid : Bool
  empty : Bool
  addr : Byte
  cmd : Byte
  state : Byte
  len : Byte
  cksum : Byte
  cksumCalc : Byte
  payload : Nat → Option Byte

/-- The packet that a state holds. -/
def State.heldPacket (s : State) : HeldPacket where
  valid := s.rxValid
  empty := s.isEmpty
  addr := s.rxAddr
  cmd := s.rxCmd
  state := s.rxState
  len := s.rxLen
  cksum := s.rxCksum
  cksumCalc := s.rxCksumCalc
  payload := s.rxp

theorem WritesReport.heldPacket_eq {s t : State} (h : WritesReport s t) : t.heldPacket = s.heldPacket := by
  obtain ⟨_, _, _, _, _, _, _, hbits⟩ := h
  simp [State.heldPacket, State.rxValid, State.isEmpty, hbits, State.rxp, funext_iff]

/-- A store below RXP leaves the held packet (20_memory.md R62). -/
theorem heldPacket_store_below (s : State) {a : Nat} (v : Byte) (h : a < rxpBase) :
    ({ s with mem := s.mem.write a v } : State).heldPacket = s.heldPacket :=
  congrArg (fun p => { s.heldPacket with payload := p }) (funext fun i => rxp_write_below s.mem v i h)

theorem heldPacket_loadStart (s : State) : (loadStart s).heldPacket = s.heldPacket :=
  (heldPacket_store_below { s with mem := s.mem.write txpBase 0x01#8 } 0x03#8 (by decide)).trans
    (heldPacket_store_below s 0x01#8 (by decide))

/-- No start step but that of DEC touches the held packet (10_state.md R43). -/
theorem exec_heldPacket {i : Instr} {s t : State} (h : exec i s = .next t) (hi : i ≠ .dec) :
    t.heldPacket = s.heldPacket := by
  cases exec_startEffect h with
  | ignored => rfl
  | ended _ _ _ hw => exact hw.heldPacket_eq
  | dec => exact absurd rfl hi
  | enc _ _ hw => exact hw.heldPacket_eq
  | encStart _ _ _ _ _ hw => exact hw.heldPacket_eq.trans (heldPacket_loadStart s)
  | encRead _ _ _ _ hw => exact hw.heldPacket_eq

/-- The hidden fields of the decoder (10_state.md R40) are written by no start step but that of DEC. -/
theorem exec_decoderFields {i : Instr} {s t : State} (h : exec i s = .next t) (hi : i ≠ .dec) :
    t.strict = s.strict ∧ t.idx = s.idx ∧ t.sum = s.sum ∧ t.ckraw = s.ckraw := by
  cases exec_startEffect h with
  | ignored => exact ⟨rfl, rfl, rfl, rfl⟩
  | ended _ _ _ hw => cases hw; exact ⟨rfl, rfl, rfl, rfl⟩
  | dec => exact absurd rfl hi
  | enc _ _ hw => cases hw; exact ⟨rfl, rfl, rfl, rfl⟩
  | encStart _ _ _ _ _ hw => cases hw; exact ⟨rfl, rfl, rfl, rfl⟩
  | encRead _ _ _ _ hw => cases hw; exact ⟨rfl, rfl, rfl, rfl⟩

/-- TX_ADDR, TX_CMD and TX_LEN are written by the two fixed forms of ENC and their wire commands alone (43_frame_encoder.md R163,
R164). -/
theorem exec_txFields {i : Instr} {s t : State} (h : exec i s = .next t) :
    (i = .encStart ∨ i = .encRead ∨ i = .wireStartMeasurement ∨ i = .wireReadMeasuredValues) ∨
      (t.txAddr = s.txAddr ∧ t.txCmd = s.txCmd ∧ t.txLen = s.txLen) := by
  cases exec_startEffect h with
  | ignored => exact .inr ⟨rfl, rfl, rfl⟩
  | ended _ _ _ hw => cases hw; exact .inr ⟨rfl, rfl, rfl⟩
  | dec => exact .inr ⟨rfl, rfl, rfl⟩
  | enc _ _ hw => cases hw; exact .inr ⟨rfl, rfl, rfl⟩
  | encStart _ _ _ hi => exact .inl (hi.elim .inl fun hwire => .inr (.inr (.inl hwire)))
  | encRead _ _ _ hi => exact .inl (hi.elim (fun hread => .inr (.inl hread)) fun hwire => .inr (.inr (.inr hwire)))

/-- TX_CKSUM is written by the sending operations alone (43_frame_encoder.md R161). -/
theorem exec_txCksum {i : Instr} {s t : State} (h : exec i s = .next t) : i ∈ sendingOps ∨ t.txCksum = s.txCksum := by
  cases exec_startEffect h with
  | ignored => exact .inr rfl
  | ended _ _ _ hw => cases hw; exact .inr rfl
  | dec => exact .inr rfl
  | enc => exact .inl (by decide)
  | encStart _ _ _ hi => rcases hi with rfl | rfl <;> exact .inl (by decide)
  | encRead _ _ _ hi => rcases hi with rfl | rfl <;> exact .inl (by decide)

/-- Settles O24: `exec_startFrame` for what no operation writes, and a lemma per group of fields that only some operations write. -/
theorem execKeepsRegistersItDoesNotName : Obligations.ExecKeepsRegistersItDoesNotName := by
  intro i s t h
  have hf := exec_startFrame h
  have hcks := exec_txCksum h
  simp only [sendingOps, List.mem_cons, List.not_mem_nil, or_false] at hcks
  refine ⟨congrArg StartFrame.ctrl hf, congrArg StartFrame.rxAddr hf, congrArg StartFrame.rxCmd hf,
    congrArg StartFrame.rxState hf, congrArg StartFrame.rxLen hf, congrArg StartFrame.rxCksum hf,
    congrArg StartFrame.rxCksumCalc hf, congrArg StartFrame.rst hf, congrArg StartFrame.hostRdata hf,
    congrArg StartFrame.rxStream hf, congrArg StartFrame.txStream hf, congrArg StartFrame.host hf,
    congrArg StartFrame.inputs hf, congrArg StartFrame.statusTop hf, exec_txFields h, hcks, ?_⟩
  by_cases hi : i = .dec
  · exact .inl hi
  · obtain ⟨hstrict, hidx, hsum, hckraw⟩ := exec_decoderFields h hi
    have hp := exec_heldPacket h hi
    exact .inr ⟨hstrict, hidx, hsum, hckraw, congrArg HeldPacket.valid hp, congrArg HeldPacket.empty hp⟩

/-! ## The host agent's turn

A turn either writes to the block or changes nothing of it. -/

/-- Only the host agent, host_rdata and the free-value counter move. -/
inductive AgentOnly (s : State) : State → Prop
  | intro (host : HostAgent) (hostRdata : Byte) (free : Nat) :
      AgentOnly s { s with host := host, hostRdata := hostRdata, free := free }

theorem agentOnly_hostRead (a : Addr) (s : State) : AgentOnly s (hostRead a s) := by
  rw [hostRead_frame]; exact ⟨_, _, _⟩

theorem AgentOnly.trans {s t u : State} (hst : AgentOnly s t) (htu : AgentOnly t u) : AgentOnly s u := by
  cases hst; cases htu; exact ⟨_, _, _⟩

theorem agentOnly_setHost (s : State) (host : HostAgent) : AgentOnly s { s with host := host } := ⟨_, _, _⟩

theorem agentOnly_runWait (rest : List HostCtl) (s : State) : AgentOnly s (runWait rest s) := by
  simp only [runWait]
  split <;> exact (agentOnly_hostRead _ s).trans (agentOnly_setHost _ _)

theorem agentOnly_runCheck (rest : List HostCtl) (s : State) : AgentOnly s (runCheck rest s) := by
  simp only [runCheck]
  split <;> exact (agentOnly_hostRead _ s).trans (agentOnly_setHost _ _)

theorem agentOnly_runIfSample (rest : List HostCtl) (s : State) : AgentOnly s (runIfSample rest s) := by
  simp only [runIfSample]
  split <;> exact (agentOnly_hostRead _ s).trans (agentOnly_setHost _ _)

theorem agentOnly_runRetry (n : Nat) (s : State) : AgentOnly s (runRetry n s) := by
  unfold runRetry
  split <;> exact agentOnly_setHost s _

theorem agentOnly_runMeasure (s : State) : AgentOnly s (runMeasure s) := by
  unfold runMeasure
  split <;> exact agentOnly_setHost s _

theorem agentOnly_nextCall (s : State) : AgentOnly s (nextCall s) := by
  unfold nextCall
  split <;> exact agentOnly_setHost s _

/-- What a statement of the host's script can do (30_encoding.md R103): a register write, or nothing to the block. -/
theorem runCtl_next_cases {c : HostCtl} {rest : List HostCtl} {s t : State} (h : runCtl c rest s = .next t) :
    (∃ a v, hostWrite a v (setScript rest s) = .next t) ∨ AgentOnly s t := by
  cases c with
  | stmt st =>
    cases st with
    | wr n v => exact .inl ⟨_, _, h⟩
    | op i => exact .inl ⟨_, _, h⟩
    | rd n => cases h; exact .inr ((agentOnly_setHost s _).trans (agentOnly_hostRead _ _))
    | wait => cases h; exact .inr (agentOnly_runWait rest s)
  | check => cases h; exact .inr (agentOnly_runCheck rest s)
  | fail => cases h; exact .inr ((agentOnly_hostRead _ s).trans (agentOnly_setHost _ _))
  | retry n => cases h; exact .inr (agentOnly_runRetry n s)
  | ifSample => cases h; exact .inr (agentOnly_runIfSample rest s)
  | collect i => cases h; exact .inr ((agentOnly_hostRead _ s).trans (agentOnly_setHost _ _))
  | measure => cases h; exact .inr (agentOnly_runMeasure s)
  | succeed => cases h; exact .inr (agentOnly_setHost s _)

theorem hostTurn_next_cases {s t : State} (h : hostTurn s = .next t) :
    (∃ l a v, hostWrite a v (setScript l s) = .next t) ∨ AgentOnly s t := by
  unfold hostTurn at h
  split at h
  · cases h; exact .inr (agentOnly_nextCall s)
  · exact (runCtl_next_cases h).imp_left fun ⟨a, v, hw⟩ => ⟨_, a, v, hw⟩

/-! ## The held packet outside a DEC -/

theorem AgentOnly.heldPacket_eq {s t : State} (h : AgentOnly s t) : t.heldPacket = s.heldPacket := by
  cases h; rfl

theorem heldPacket_regWrite (a : Addr) (v : Byte) (s : State) : (regWrite a v s).heldPacket = s.heldPacket := by
  simp only [regWrite]
  split
  · rfl
  · split
    · rfl
    · split
      · rfl
      · split
        · rfl
        · split
          next htxp => exact heldPacket_store_below s v htxp.2
          next => rfl

theorem heldPacket_hostStore (a : Addr) (v : Byte) (s : State) : (hostStore a v s).heldPacket = s.heldPacket := by
  unfold hostStore
  split
  · exact heldPacket_regWrite a v s
  · rfl

/-- An operation that leaves no DEC running leaves the held packet: an accepted DEC would run. -/
theorem exec_heldPacket_of_not_dec {i : Instr} {s t : State} (h : exec i s = .next t) (ht : t.fsm.isDec = false) :
    t.heldPacket = s.heldPacket := by
  by_cases hi : i = .dec
  · subst hi
    cases exec_startEffect h with
    | ignored => rfl
    | ended _ _ _ hw => exact hw.heldPacket_eq
    | dec => cases ht
    | encStart _ _ _ hi => cases hi <;> contradiction
    | encRead _ _ _ hi => cases hi <;> contradiction
  · exact exec_heldPacket h hi

theorem hostWrite_heldPacket {a : Addr} {v : Byte} {s t : State} (h : hostWrite a v s = .next t)
    (ht : t.fsm.isDec = false) : t.heldPacket = s.heldPacket := by
  unfold hostWrite at h
  split at h
  · exact exec_heldPacket_of_not_dec h ht
  · cases h; exact heldPacket_hostStore a v s

theorem hostAct_heldPacket {act : HostAct} {s t : State} (h : hostAct act s = .next t) (ht : t.fsm.isDec = false) :
    t.heldPacket = s.heldPacket := by
  cases act with
  | read a => cases h; exact (agentOnly_hostRead a s).heldPacket_eq
  | write a v => exact hostWrite_heldPacket h ht
  | command c =>
    simp only [hostAct] at h
    split at h
    · exact exec_heldPacket_of_not_dec h ht
    · cases h

theorem hostTurn_heldPacket {s t : State} (h : hostTurn s = .next t) (ht : t.fsm.isDec = false) :
    t.heldPacket = s.heldPacket := by
  rcases hostTurn_next_cases h with ⟨l, a, v, hw⟩ | ha
  · have hp : t.heldPacket = (setScript l s).heldPacket := hostWrite_heldPacket hw ht
    exact hp
  · exact ha.heldPacket_eq

theorem heldPacket_encEmitStep (p : Ports) (s : State) : (encEmitStep p s).heldPacket = s.heldPacket := by
  unfold encEmitStep
  split
  · exact (writesReport_raise ..).heldPacket_eq
  · split
    · split
      · rfl
      · exact (writesReport_finish _).heldPacket_eq
      · rfl
    · rfl

/-- Outside a DEC a block step holds or sends (10_state.md R41). -/
theorem blockStep_of_not_dec (p : Ports) (s : State) (hs : s.fsm.isDec = false) :
    blockStep p s = s ∨ blockStep p s = encEmitStep p s := by
  unfold blockStep
  split
  · exact .inl rfl
  · cases hfsm : s.fsm <;> simp [hfsm, Fsm.isDec] at hs ⊢

theorem heldPacket_blockStep (p : Ports) (s : State) (hs : s.fsm.isDec = false) :
    (blockStep p s).heldPacket = s.heldPacket := by
  rcases blockStep_of_not_dec p s hs with h | h <;> rw [h]
  exact heldPacket_encEmitStep p s

/-- Sampling rst touches the packet only when rst falls (70_reset_and_hazards.md R330). -/
theorem heldPacket_sampleRst (level : Bool) (s : State) (hr : level = false → s.rst = false) :
    (sampleRst level s).heldPacket = s.heldPacket := by
  cases level with
  | true => rfl
  | false => simp [sampleRst, hr rfl]

theorem askCall_agentOnly {c : HostCall} {s t : State} (h : askCall c s = .next t) : AgentOnly s t := by
  unfold askCall at h
  split at h
  · cases h; exact agentOnly_setHost s _
  · cases h

theorem runInput_heldPacket {i : Input} {s t : State} (h : runInput i s = .next t) (hs : s.fsm.isDec = false)
    (ht : t.fsm.isDec = false) (hr : i = .rst false → s.rst = false) : t.heldPacket = s.heldPacket := by
  cases i with
  | rst level => cases h; exact heldPacket_sampleRst level s fun hl => hr (by rw [hl])
  | host act => exact hostAct_heldPacket h ht
  | ports p => cases h; exact heldPacket_blockStep p s hs
  | rx bytes => cases h; rfl
  | call c => exact (askCall_agentOnly h).heldPacket_eq
  | turn => exact hostTurn_heldPacket h ht

/-- Settles O45: each kind of input leaves the held packet, by `runInput_heldPacket`. -/
theorem onlyDecTouchesTheHeldPacket : Obligations.OnlyDecTouchesTheHeldPacket := by
  intro s t h hs ht hr
  have hp : t.heldPacket = s.heldPacket := by
    rcases step_next_cases h with ⟨_, rfl⟩ | ⟨i, rest, hin, hrun⟩
    · rfl
    · have hrun' : t.heldPacket = ({ s with inputs := rest } : State).heldPacket :=
        runInput_heldPacket hrun hs ht fun hi => hr rest (hi ▸ hin)
      exact hrun'
  exact ⟨congrArg HeldPacket.valid hp, congrArg HeldPacket.empty hp, congrArg HeldPacket.addr hp,
    congrArg HeldPacket.cmd hp, congrArg HeldPacket.state hp, congrArg HeldPacket.len hp,
    congrArg HeldPacket.cksum hp, congrArg HeldPacket.cksumCalc hp, congrFun (congrArg HeldPacket.payload hp)⟩

/-! ## The host's writes of the writable registers -/

/-- An accepting block takes a write of any register but OP (20_memory.md R71). -/
theorem step_hostWrite {s : State} {a : Addr} {v : Byte} {rest : List Input} (h : HostActs s (.write a v) rest)
    (hop : a ≠ opAddr) (hs : s.accepting = true) : step s = .next (regWrite a v { s with inputs := rest }) := by
  have hs' : ({ s with inputs := rest } : State).accepting = true := hs
  have hin : s.inputs = .host (.write a v) :: rest := h
  simp [step, hin, runInput, hostAct, hostWrite, hop, hostStore, hs']

/-- A write in the range of TXP stores there (20_memory.md R62, R71). -/
theorem regWrite_txp {a : Addr} (h0 : 0x100 ≤ a.toNat) (h1 : a.toNat < 0x200) (v : Byte) (s : State) :
    regWrite a v s = { s with mem := s.mem.write a.toNat v } := by
  have h : txpBase ≤ a.toNat ∧ a.toNat < rxpBase := ⟨h0, h1⟩
  simp only [regWrite, if_pos h]
  repeat rw [if_neg (by omega)]

/-- The address of TXP[i] (20_memory.md R62). -/
theorem toNat_txpAddr {i : Nat} (hi : i < 256) : (BitVec.ofNat 10 (0x100 + i)).toNat = txpBase + i := by
  simp only [BitVec.toNat_ofNat, txpBase]; omega

/-- Settles O26: an accepting block runs `regWrite`, which stores at the register or the entry that the address names. -/
theorem writableRegistersTakeTheWrittenByte : Obligations.WritableRegistersTakeTheWrittenByte := by
  intro s v rest hs
  refine ⟨fun h => step_hostWrite h (by decide) hs, fun h => step_hostWrite h (by decide) hs,
    fun h => step_hostWrite h (by decide) hs, fun h => step_hostWrite h (by decide) hs, fun i hi h => ?_⟩
  have haddr := toNat_txpAddr hi
  have h0 : 0x100 ≤ (BitVec.ofNat 10 (0x100 + i)).toNat := by rw [haddr]; exact Nat.le_add_right _ _
  have h1 : (BitVec.ofNat 10 (0x100 + i)).toNat < 0x200 := by rw [haddr, txpBase]; omega
  have hop : BitVec.ofNat 10 (0x100 + i) ≠ opAddr := fun ho => absurd (ho ▸ h0) (by decide)
  have hstep := step_hostWrite h hop hs
  rw [regWrite_txp h0 h1, haddr] at hstep
  refine ⟨_, hstep, rfl, Memory.read_write_same _ _ _, fun j hj => ?_, fun j => ?_⟩
  · exact Memory.read_write_other _ _ _ _ (by omega)
  · exact rxp_write_below _ v j (by rw [← haddr]; exact h1)

end Sys2Proof.Machine
end

section
/-! The family 20_memory.md: that every step keeps the block's invariant (O42) and moves the streams in order (O46), the host's
accesses (O25, O27, O28), and the transport's side of DEC and ENC_EMIT (O36, O37). -/

namespace Sys2Proof.Machine

/-! ## What an input can do

Inputs differ, but they reach the block in five ways only: the reset port, the transport, arriving bytes, an operation and a
store. Whatever else an input does moves the host's side alone. -/

/-- The effect of an input on the state `s`. An operation or a store may come from the script of the host agent, which then moves
on: `host` is the agent afterwards. -/
inductive InputEffect (s : State) : Input → State → Prop
  | rst (level : Bool) : InputEffect s (.rst level) (sampleRst level s)
  | ports (p : Ports) : InputEffect s (.ports p) (blockStep p s)
  | rx (bytes : List Byte) : InputEffect s (.rx bytes) (receive bytes s)
  | op (i : Input) (host : HostAgent) (j : Instr) (t : State) (h : exec j { s with host := host } = .next t) :
      InputEffect s i t
  | store (i : Input) (host : HostAgent) (a : Addr) (v : Byte) : InputEffect s i (hostStore a v { s with host := host })
  | agent (i : Input) (t : State) (h : AgentOnly s t) : InputEffect s i t

theorem hostWrite_inputEffect {s t : State} (i : Input) (host : HostAgent) {a : Addr} {v : Byte}
    (h : hostWrite a v { s with host := host } = .next t) : InputEffect s i t := by
  unfold hostWrite at h
  split at h
  · exact .op i host _ t h
  · cases h; exact .store i host a v

theorem hostAct_inputEffect {act : HostAct} {s t : State} (h : hostAct act s = .next t) :
    InputEffect s (.host act) t := by
  cases act with
  | read a => cases h; exact .agent _ _ (agentOnly_hostRead a s)
  | write a v => exact hostWrite_inputEffect _ s.host h
  | command c =>
    simp only [hostAct] at h
    split at h
    · exact .op _ s.host _ t h
    · cases h

theorem runInput_inputEffect {i : Input} {s t : State} (h : runInput i s = .next t) : InputEffect s i t := by
  cases i with
  | rst level => cases h; exact .rst level
  | host act => exact hostAct_inputEffect h
  | ports p => cases h; exact .ports p
  | rx bytes => cases h; exact .rx bytes
  | call c => exact .agent _ _ (askCall_agentOnly h)
  | turn =>
    rcases hostTurn_next_cases h with ⟨l, a, v, hw⟩ | ha
    · exact hostWrite_inputEffect _ { s.host with script := l } hw
    · exact .agent _ _ ha

/-! ## The transport's byte in each state -/

theorem blockStep_of_rst (p : Ports) (s : State) (h : s.rst = true) : blockStep p s = s := by simp [blockStep, h]

/-- Out of reset a DEC takes its step against the transport (44_frame_decoder.md R190). -/
theorem blockStep_of_dec (p : Ports) (s : State) (hr : s.rst = false) (hs : s.fsm.isDec = true) :
    blockStep p s = decStep p s := by
  cases hfsm : s.fsm <;> simp [blockStep, hr, hfsm, Fsm.isDec] at hs ⊢

/-- Out of reset ENC_EMIT takes its step against the transport (43_frame_encoder.md R162). -/
theorem blockStep_of_encEmit (p : Ports) (s : State) (hr : s.rst = false) (hs : s.fsm = .encEmit) :
    blockStep p s = encEmitStep p s := by
  simp [blockStep, hr, hs]

theorem blockStep_of_idle (p : Ports) (s : State) (hs : s.fsm = .idle) : blockStep p s = s := by
  simp [blockStep, hs]

/-- The states of the sequencer: it rests, sends or receives (10_state.md R41). -/
theorem Fsm.idle_or_encEmit_or_isDec (f : Fsm) : f = .idle ∨ f = .encEmit ∨ f.isDec = true := by
  cases f <;> simp [Fsm.isDec]

/-- What a block step can do: hold, send, or take a step of DEC (10_state.md R41; 70_reset_and_hazards.md R330). -/
theorem blockStep_cases (p : Ports) (s : State) :
    blockStep p s = s ∨ (s.fsm = .encEmit ∧ blockStep p s = encEmitStep p s) ∨
      (s.fsm.isDec = true ∧ blockStep p s = decStep p s) := by
  cases hr : s.rst with
  | true => exact .inl (blockStep_of_rst p s hr)
  | false =>
    rcases s.fsm.idle_or_encEmit_or_isDec with hs | hs | hs
    · exact .inl (blockStep_of_idle p s hs)
    · exact .inr (.inl ⟨hs, blockStep_of_encEmit p s hr hs⟩)
    · exact .inr (.inr ⟨hs, blockStep_of_dec p s hr hs⟩)

/-- The transport offers the first byte that it holds (20_memory.md R64, R66). -/
theorem rxOffer_some {p : Ports} {s : State} {r : Byte} {rest : List Byte} (h : rxOffer p s = some (r, rest)) :
    s.rxStream = r :: rest := by
  unfold rxOffer at h
  split at h
  next hstream => cases h; exact hstream
  next => cases h

/-- What a step of DEC can do: fail with the transport, hold, or take the first byte of the stream (20_memory.md R64). -/
theorem decStep_cases (p : Ports) (s : State) :
    decStep p s = raiseDec .transport 0x00#8 s ∨ decStep p s = s ∨
      ∃ r rest, s.rxStream = r :: rest ∧ decStep p s = decByte r { s with rxStream := rest } := by
  unfold decStep
  split
  · exact .inl rfl
  · split
    · exact .inr (.inl rfl)
    next hoffer => exact .inr (.inr ⟨_, _, rxOffer_some hoffer, rfl⟩)

/-- What a raw byte does in a DEC: the delimiters are read raw and every byte between them is unstuffed (44_frame_decoder.md R192,
R193, R200). -/
theorem decByte_cases (r : Byte) (s : State) (hs : s.fsm.isDec = true) :
    (s.fsm = .decSof ∧ decByte r s = decSofByte r s) ∨ (s.fsm.isBody = true ∧ decByte r s = unstuffStep r s) ∨
      (s.fsm = .decEof ∧ decByte r s = decEofByte r s) := by
  cases hfsm : s.fsm <;> simp [decByte, hfsm, Fsm.isBody, Fsm.isDec] at hs ⊢

/-- What DEC_SOF does with a raw byte (44_frame_decoder.md R192). -/
theorem decSofByte_cases (r : Byte) (s : State) :
    decSofByte r s = { s with sum := 0#8, fsm := .decAddr } ∨ decSofByte r s = raiseDec (.framing false) r s := by
  unfold decSofByte
  split
  · exact .inl rfl
  · exact .inr rfl

/-- What a raw byte does in a body state: it delivers a logical byte, is the bad half of an escape
pair, or waits for the second half (41_byte_codec.md R123, R126). -/
theorem unstuffStep_cases (r : Byte) (s : State) :
    (∃ v, unstuffStep r s = deliver v { s with esc := false }) ∨
      unstuffStep r s = raiseDec .stuffing r { s with esc := false } ∨ unstuffStep r s = { s with esc := true } := by
  unfold unstuffStep
  split
  · split
    · exact .inl ⟨_, rfl⟩
    · exact .inr (.inl rfl)
  next hesc =>
    have hs : s = { s with esc := false } := by
      cases s; simpa using hesc
    split
    · exact .inr (.inr rfl)
    · exact .inl ⟨r, congrArg (deliver r) hs⟩

/-- The state that a DEC leaves when it hands over a packet (44_frame_decoder.md R200). -/
def packetHeld (s : State) : State := finish { s with status := statusPacket s.status true (s.rxLen == 0#8) }

/-- What DEC_EOF does with a raw byte: an error, or a packet handed over (44_frame_decoder.md R200). -/
theorem decEofByte_cases (r : Byte) (s : State) :
    (∃ e info, decEofByte r s = raiseDec e info s) ∨ decEofByte r s = packetHeld s := by
  unfold decEofByte
  split
  · exact .inl ⟨_, _, rfl⟩
  · split
    · exact .inl ⟨_, _, rfl⟩
    · exact .inr rfl

/-- What a step of ENC_EMIT can do: fail with the transport, hold, or hand over the first byte of h.txq, the last of which ends
the operation (20_memory.md R65, 43_frame_encoder.md R162). -/
theorem encEmitStep_cases (p : Ports) (s : State) :
    encEmitStep p s = raise .transport 0x00#8 s ∨ encEmitStep p s = s ∨
      ∃ b q, s.txq = b :: q ∧
        ((q = [] ∧ encEmitStep p s = finish { s with txStream := s.txStream ++ [b], txq := [] }) ∨
          (q ≠ [] ∧ encEmitStep p s = { s with txStream := s.txStream ++ [b], txq := q })) := by
  unfold encEmitStep
  split
  · exact .inl rfl
  · split
    · split
      · exact .inr (.inl rfl)
      next hq => exact .inr (.inr ⟨_, _, hq, .inl ⟨rfl, rfl⟩⟩)
      next b q hne hq => exact .inr (.inr ⟨b, q, hq, .inr ⟨hne, rfl⟩⟩)
    · exact .inr (.inl rfl)

/-! ## The invariant outside a DEC

There a step writes the report and the sequencer and leaves the held packet, so the invariant comes down to `SequencerSound`,
`ReportSound` and what ACK and SAMPLE say of the packet. -/

/-- The reserved bit of STATUS (10_state.md R26). -/
theorem status_reserved_iff (x : Byte) : x &&& 0x80#8 = 0#8 ↔ bit x 7 = false := by
  revert x; decide

/-- No code of 60_exceptions.md R290 uses a reserved bit of ERRCODE. -/
theorem errcode_reserved_of_legal {x : Byte} (h : x ∈ legalErrcodes) : x &&& 0xE0#8 = 0#8 := by
  revert x; decide

theorem errcodeOf_legal (e : ErrorKind) : errcodeOf e ∈ legalErrcodes := by
  cases e with
  | framing stop => cases stop <;> decide
  | _ => decide

theorem errcodeOf_ne_zero (e : ErrorKind) : errcodeOf e ≠ 0#8 := by
  cases e with
  | framing stop => cases stop <;> decide
  | _ => decide

/-- Every operation code fits OP[3:0] (30_encoding.md R90, R92). -/
theorem sentOpcode_reserved (i : Instr) : sentOpcode i &&& 0xF0#8 = 0#8 := by
  cases i <;> decide

theorem payloadProgress_of_not_dec {s : State} (h : s.fsm.isDec = false) : PayloadProgress s := by
  refine ⟨fun hf => ?_, fun hf => ?_⟩
  · rw [hf] at h; cases h
  · rcases hf with hf | hf <;> rw [hf] at h <;> cases h

/-- No half-read escape pair stands outside the body of a frame (41_byte_codec.md R129). -/
theorem SequencerSound.esc_false {s : State} (h : SequencerSound s) (hs : s.fsm.isBody = false) : s.esc = false := by
  obtain ⟨_, _, _, hesc⟩ := h
  cases he : s.esc with
  | false => rfl
  | true => rw [hesc he] at hs; cases hs

theorem sequencerSound_idle {s : State} (hbusy : s.busy = false) (hfsm : s.fsm = .idle) (htxq : s.txq = [])
    (hesc : s.esc = false) : SequencerSound s := by
  simp [SequencerSound, hbusy, hfsm, htxq, hesc]

/-- A write of the report and the sequencer keeps the invariant when what it writes is sound, and ACK and SAMPLE are set only for
packets that they fit. -/
theorem Inv.of_writesReport {s t : State} (h : Inv s) (hw : WritesReport s t) (hop : t.op &&& 0xF0#8 = 0#8)
    (hseq : SequencerSound t) (hrep : ReportSound t) (hdec : t.fsm.isDec = false)
    (hack : t.ack = true → s.ack = true ∨ (s.rxValid = true ∧ s.isAck = true))
    (hsample : t.sample = true → s.sample = true ∨ (s.rxValid = true ∧ s.rxLen = Config.measurementLen)) : Inv t := by
  obtain ⟨⟨hctrl, -, hstatus, -⟩, -, -, ⟨-, hempty, hpayload, hackFits, hsampleFits⟩, -, hwf⟩ := h
  have herrcode := errcode_reserved_of_legal hrep.1
  have htop : bit t.status 7 = false :=
    (congrArg StartFrame.statusTop hw.startFrame_eq).trans ((status_reserved_iff _).1 hstatus)
  have hvalid : t.rxValid = s.rxValid := congrArg HeldPacket.valid hw.heldPacket_eq
  have hemptyEq : t.isEmpty = s.isEmpty := congrArg HeldPacket.empty hw.heldPacket_eq
  cases hw
  refine ⟨⟨hctrl, hop, (status_reserved_iff _).2 htop, herrcode⟩, hseq, hrep, ⟨?_, ?_, ?_, ?_, ?_⟩,
    payloadProgress_of_not_dec hdec, hwf⟩
  · intro hd; rw [hd] at hdec; cases hdec
  · rw [hvalid, hemptyEq]; exact hempty
  · rw [hvalid]; exact hpayload
  · rw [hvalid]; intro ht
    rcases hack ht with ha | ⟨hv, ha⟩
    · exact hackFits ha
    · simp only [State.isAck, Bool.and_eq_true, beq_iff_eq] at ha
      obtain ⟨⟨⟨⟨haddr, hcmd⟩, hst⟩, hlen⟩, -⟩ := ha
      exact ⟨hv, haddr, hcmd, hst, hlen⟩
  · rw [hvalid]; intro ht
    exact (hsample ht).elim hsampleFits id

/-- A block that is not busy rests (10_state.md R41). -/
theorem SequencerSound.of_not_busy {s : State} (h : SequencerSound s) (hb : s.busy = false) :
    s.fsm = .idle ∧ s.txq = [] ∧ s.esc = false := by
  have ⟨hbusy, htxq, _, _⟩ := h
  have hfsm : s.fsm = .idle := Decidable.byContradiction fun hne => by
    rw [hbusy.2 hne] at hb; cases hb
  have hempty : s.txq = [] := Decidable.byContradiction fun hne => by
    rw [htxq.1 hne] at hfsm; cases hfsm
  exact ⟨hfsm, hempty, h.esc_false (by rw [hfsm]; rfl)⟩

/-! ### The flags of STATUS after the shared operations (30_encoding.md R95; 60_exceptions.md R294, R295) -/

@[simp] theorem startActions_busy (opc : Byte) (s : State) : (startActions opc s).busy = s.busy := by
  simp [State.busy, busyBit]
@[simp] theorem startActions_done (opc : Byte) (s : State) : (startActions opc s).done = false := by
  simp [State.done, doneBit]
@[simp] theorem startActions_err (opc : Byte) (s : State) : (startActions opc s).err = false := by
  simp [State.err, errBit]
@[simp] theorem startActions_ack (opc : Byte) (s : State) : (startActions opc s).ack = false := by
  simp [State.ack, ackBit]
@[simp] theorem startActions_sample (opc : Byte) (s : State) : (startActions opc s).sample = false := by
  simp [State.sample, sampleBit]

@[simp] theorem finish_busy (s : State) : (finish s).busy = false := by simp [State.busy, busyBit]
@[simp] theorem finish_done (s : State) : (finish s).done = true := by simp [State.done, doneBit]
@[simp] theorem finish_err (s : State) : (finish s).err = s.err := by simp [State.err, errBit]
@[simp] theorem finish_ack (s : State) : (finish s).ack = s.ack := by simp [State.ack, ackBit]
@[simp] theorem finish_sample (s : State) : (finish s).sample = s.sample := by simp [State.sample, sampleBit]

@[simp] theorem raise_busy (e : ErrorKind) (b : Byte) (s : State) : (raise e b s).busy = false := by
  simp [State.busy, busyBit]
@[simp] theorem raise_done (e : ErrorKind) (b : Byte) (s : State) : (raise e b s).done = true := by
  simp [State.done, doneBit]
@[simp] theorem raise_err (e : ErrorKind) (b : Byte) (s : State) : (raise e b s).err = true := by
  simp [State.err, errBit]
@[simp] theorem raise_ack (e : ErrorKind) (b : Byte) (s : State) : (raise e b s).ack = s.ack := by
  simp [State.ack, ackBit]
@[simp] theorem raise_sample (e : ErrorKind) (b : Byte) (s : State) : (raise e b s).sample = s.sample := by
  simp [State.sample, sampleBit]

/-! ### The operations that start and end outside a DEC -/

theorem inv_startActions {opc : Byte} {s : State} (h : Inv s) (hb : s.busy = false) (hopc : opc &&& 0xF0#8 = 0#8) :
    Inv (startActions opc s) := by
  have ⟨_, hseq, _⟩ := h
  obtain ⟨hfsm, htxq, hesc⟩ := hseq.of_not_busy hb
  refine h.of_writesReport (writesReport_startActions opc s) hopc
    (sequencerSound_idle (by simpa using hb) hfsm htxq hesc) ?_ (by simp [hfsm, Fsm.isDec]) (by simp) (by simp)
  simp [ReportSound, legalErrcodes]

/-- `finish()` keeps the invariant (60_exceptions.md R294). -/
theorem inv_finish {s : State} (h : Inv s) (hesc : s.esc = false) : Inv (finish s) := by
  have ⟨⟨_, hop, _, _⟩, _, ⟨hlegal, herr, _, _, hinfo⟩, _⟩ := h
  refine h.of_writesReport (writesReport_finish s) hop (sequencerSound_idle (finish_busy s) rfl rfl hesc) ?_ rfl
    (fun ha => .inl (by simpa using ha)) (fun ha => .inl (by simpa using ha))
  simpa [ReportSound] using ⟨hlegal, herr, hinfo⟩

/-- `raise` keeps the invariant (60_exceptions.md R295). -/
theorem inv_raise {s : State} (h : Inv s) (e : ErrorKind) (info : Byte) : Inv (raise e info s) := by
  have ⟨⟨_, hop, _, _⟩, _⟩ := h
  refine h.of_writesReport (writesReport_raise e info s) hop (sequencerSound_idle (raise_busy e info s) rfl rfl rfl) ?_
    rfl (fun ha => .inl (by simpa using ha)) (fun ha => .inl (by simpa using ha))
  simp [ReportSound, errcodeOf_legal, errcodeOf_ne_zero]

/-- A check marks a packet that fits its mark (45_response_check.md R230, R233). -/
theorem inv_mark {s : State} (h : Inv s) (hs : s.fsm = .idle) (k : Nat)
    (hk : (k = ackBit ∧ s.rxValid = true ∧ s.isAck = true) ∨
      (k = sampleBit ∧ s.rxValid = true ∧ s.rxLen = Config.measurementLen)) :
    Inv { s with status := setBit s.status k true } := by
  have ⟨⟨_, hop, _, _⟩, hseq, hrep, _⟩ := h
  refine h.of_writesReport (writesReport_mark k (hk.imp And.left And.left) s) hop ?_ ?_ (by simp [hs, Fsm.isDec]) ?_ ?_
  all_goals rcases hk with ⟨rfl, hfits⟩ | ⟨rfl, hfits⟩
  · simpa [SequencerSound, State.busy, busyBit, ackBit] using hseq
  · simpa [SequencerSound, State.busy, busyBit, sampleBit] using hseq
  · simpa [ReportSound, State.busy, State.err, State.done, busyBit, errBit, doneBit, ackBit] using hrep
  · simpa [ReportSound, State.busy, State.err, State.done, busyBit, errBit, doneBit, sampleBit] using hrep
  · exact fun _ => .inr hfits
  · simp [State.ack, ackBit, sampleBit]; exact .inl
  · simp [State.sample, ackBit, sampleBit]; exact .inl
  · exact fun _ => .inr hfits

theorem inv_chkAck {s : State} (h : Inv s) (hs : s.fsm = .idle) (hesc : s.esc = false) : Inv (chkAck s) := by
  unfold chkAck
  split
  · exact inv_raise h _ _
  next hvalid =>
    have hvalid : s.rxValid = true := by simpa using hvalid
    split
    next hack => exact inv_finish (inv_mark h hs ackBit (.inl ⟨rfl, hvalid, hack⟩)) hesc
    next => exact inv_raise h _ _

theorem inv_chkMeas {s : State} (h : Inv s) (hs : s.fsm = .idle) (hesc : s.esc = false) : Inv (chkMeas s) := by
  unfold chkMeas
  split
  · exact inv_raise h _ _
  next hvalid =>
    have hvalid : s.rxValid = true := by simpa using hvalid
    split
    · exact inv_finish h hesc
    · split
      next hlen => exact inv_finish (inv_mark h hs sampleBit (.inr ⟨rfl, hvalid, hlen⟩)) hesc
      next => exact inv_raise h _ _

/-! ### The frames that ENC_EMIT sends -/

theorem stuff_length_le (b : Byte) : (stuff b).length ≤ 2 := by
  rw [stuff_length]; split <;> decide

theorem stuffSeq_length_le (l : List Byte) : (stuffSeq l).length ≤ 2 * l.length := by
  induction l with
  | nil => simp
  | cons b l ih =>
    have hb := stuff_length_le b
    simp only [stuffSeq_cons, List.length_append, List.length_cons]
    omega

/-- A command frame has at most 519 raw bytes: the length byte of the longest payload, 0xFF, is not stuffed (30_encoding.md
R98). -/
theorem encodeFrame_length_le (a c : Byte) (p : List Byte) (hp : p.length ≤ 255) : (encodeFrame a c p).length ≤ 519 := by
  have ha := stuff_length_le a
  have hc := stuff_length_le c
  have hlen : (stuff (lenByte p)).length + p.length ≤ 256 := by
    by_cases hmax : p.length = 255
    · have hb : stuff (lenByte p) = [0xFF#8] := by rw [lenByte, hmax]; decide
      rw [hb, hmax]; decide
    · have hb := stuff_length_le (lenByte p)
      omega
  have hrest := stuffSeq_length_le (p ++ [cks (commandBody a c p)])
  simp only [List.length_append, List.length_cons, List.length_nil] at hrest
  simp only [encodeFrame, frameOf, commandBody, List.cons_append, stuffSeq_cons, List.length_cons, List.length_append,
    List.length_nil] at hrest ⊢
  omega

theorem encodeFrame_ne_nil (a c : Byte) (p : List Byte) : encodeFrame a c p ≠ [] := List.cons_ne_nil _ _

/-- `ENC_start()` keeps the invariant once the start actions have cleared the report (43_frame_encoder.md R161). -/
theorem inv_encBegin {s t : State} (h : Inv s) (hdone : s.done = false) (hesc : s.esc = false)
    (he : encBegin s = .next t) : Inv t := by
  have ⟨⟨_, hop, _, _⟩, _, ⟨hlegal, herr, hdoneErr, _, hinfo⟩, _⟩ := h
  obtain ⟨k, hw⟩ := encBegin_writes he
  have hk : Inv { s with txCksum := k } := h
  rcases encBegin_cases s with ⟨_, hf⟩ | ⟨p, hp, hn⟩
  · rw [hf] at he; cases he
  · rw [hn] at he; cases he
    have hlen : (encodeFrame s.txAddr s.txCmd p).length ≤ 519 :=
      encodeFrame_length_le _ _ _ (by rw [txPayload_length s p hp]; omega)
    refine hk.of_writesReport hw hop ?_ ?_ rfl ?_ ?_
    · simp [SequencerSound, State.busy, busyBit, encodeFrame_ne_nil, hlen, hesc]
    · have hclean : s.err = false := Bool.eq_false_iff.2 fun hbad => by
        rw [hdoneErr hbad] at hdone; cases hdone
      have hcode : s.errcode = 0#8 := by simpa [hclean] using herr
      simp only [State.done, State.err, doneBit, errBit] at hdone hclean
      simp [ReportSound, legalErrcodes, State.done, State.err, busyBit, doneBit, errBit, hdone, hclean, hcode, hinfo]
    · simp [State.ack, busyBit, ackBit]; exact .inl
    · simp [State.sample, busyBit, sampleBit]; exact .inl

/-! ### The host's stores -/

/-- A store in TXP touches nothing that the invariant speaks of but the canonical form of memory, which it keeps. -/
theorem inv_store_txp {s : State} (h : Inv s) {a : Nat} (v : Byte) (h0 : txpBase ≤ a) (h1 : a < rxpBase) :
    Inv { s with mem := s.mem.write a v } := by
  obtain ⟨hres, hseq, hrep, hpacket, hprog, hwf⟩ := h
  have hrxp : ({ s with mem := s.mem.write a v } : State).rxp = s.rxp := funext fun i => rxp_write_below s.mem v i h1
  refine ⟨hres, hseq, hrep, ?_, ?_, Memory.wf_write _ _ _ h0 (Nat.lt_trans h1 (by decide)) hwf⟩
  · unfold PacketSound; rw [hrxp]; exact hpacket
  · unfold PayloadProgress; rw [hrxp]; exact hprog

theorem inv_loadStart {s : State} (h : Inv s) : Inv (loadStart s) := by
  have hmem : Inv { s with mem := (s.mem.write txpBase 0x01#8).write (txpBase + 1) 0x03#8 } :=
    inv_store_txp (inv_store_txp h 0x01#8 (by decide) (by decide)) 0x03#8 (by decide) (by decide)
  exact hmem

theorem inv_loadRead {s : State} (h : Inv s) : Inv (loadRead s) := h

/-- A written CTRL keeps only its mode bit (20_memory.md R73). -/
theorem ctrlOf_reserved (v : Byte) : ctrlOf v &&& 0xFE#8 = 0#8 := by
  revert v; decide

theorem inv_setCtrl {s : State} (h : Inv s) (v : Byte) : Inv { s with ctrl := ctrlOf v } := by
  obtain ⟨⟨-, hres⟩, hrest⟩ := h
  exact ⟨⟨ctrlOf_reserved v, hres⟩, hrest⟩

/-- What a host's register write can do: store in CTRL, in the fields of the command, or in TXP (20_memory.md R62, R71 to R74). -/
theorem regWrite_cases (a : Addr) (v : Byte) (s : State) :
    regWrite a v s = { s with ctrl := ctrlOf v } ∨
      (∃ addr cmd len, regWrite a v s = { s with txAddr := addr, txCmd := cmd, txLen := len }) ∨
        (txpBase ≤ a.toNat ∧ a.toNat < rxpBase ∧ regWrite a v s = { s with mem := s.mem.write a.toNat v }) := by
  simp only [regWrite]
  split
  · exact .inl rfl
  · split
    · exact .inr (.inl ⟨_, _, _, rfl⟩)
    · split
      · exact .inr (.inl ⟨_, _, _, rfl⟩)
      · split
        · exact .inr (.inl ⟨_, _, _, rfl⟩)
        · split
          next htxp => exact .inr (.inr ⟨htxp.1, htxp.2, rfl⟩)
          next => exact .inr (.inl ⟨_, _, _, rfl⟩)

theorem inv_regWrite {s : State} (h : Inv s) (a : Addr) (v : Byte) : Inv (regWrite a v s) := by
  rcases regWrite_cases a v s with hw | ⟨_, _, _, hw⟩ | ⟨h0, h1, hw⟩ <;> rw [hw]
  · exact inv_setCtrl h v
  · exact h
  · exact inv_store_txp h v h0 h1

theorem inv_hostStore {s : State} (h : Inv s) (a : Addr) (v : Byte) : Inv (hostStore a v s) := by
  unfold hostStore
  split
  · exact inv_regWrite h a v
  · exact h

/-! ### A step of ENC_EMIT -/

theorem inv_encEmitStep {s : State} (h : Inv s) (hs : s.fsm = .encEmit) (p : Ports) : Inv (encEmitStep p s) := by
  have ⟨⟨_, hop, _⟩, hseq, hrep, _⟩ := h
  have hesc : s.esc = false := hseq.esc_false (by rw [hs]; rfl)
  rcases encEmitStep_cases p s with he | he | ⟨b, q, hq, ⟨-, he⟩ | ⟨hne, he⟩⟩ <;> rw [he]
  · exact inv_raise h _ _
  · exact h
  · have hfin : Inv (finish s) := inv_finish h hesc
    exact hfin
  · have hseq' : SequencerSound { s with txq := q } := by
      obtain ⟨hbusy, -, hlen, hbody⟩ := hseq
      rw [hq] at hlen
      exact ⟨hbusy, ⟨fun _ => hs, fun _ => hne⟩, Nat.le_trans (Nat.le_succ _) hlen, hbody⟩
    have hinv : Inv { s with txq := q } :=
      h.of_writesReport ⟨_, _, _, _, _, _, _, fun _ _ => rfl⟩ hop hseq' hrep (by simp [hs, Fsm.isDec]) .inl .inl
    exact hinv

/-! ## The invariant while a DEC runs

A DEC holds no packet and no report, so STATUS is BUSY alone; what is left to keep is the half-read escape pair, the progress of
the payload and the form of memory. -/

/-- BUSY alone, bit by bit (10_state.md R26). -/
theorem status_busy_alone {x : Byte} (h : bit x 0 = true ∧ bit x 1 = false ∧ bit x 2 = false ∧ bit x 3 = false ∧
    bit x 4 = false ∧ bit x 5 = false ∧ bit x 6 = false ∧ bit x 7 = false) : x = 0x01#8 := by
  revert x; decide

/-- The invariant of a running DEC. -/
structure DecInv (s : State) : Prop where
  running : s.fsm.isDec = true
  ctrl : s.ctrl &&& 0xFE#8 = 0#8
  op : s.op &&& 0xF0#8 = 0#8
  status : s.status = 0x01#8
  errcode : s.errcode = 0#8
  errbyte : s.errbyte = 0#8
  txq : s.txq = []
  esc : s.esc = true → s.fsm.isBody = true
  progress : PayloadProgress s
  wf : s.mem.wf = true

theorem Inv.decInv {s : State} (h : Inv s) (hs : s.fsm.isDec = true) : DecInv s := by
  obtain ⟨⟨hctrl, hop, hstatus, -⟩, ⟨hbusy, htxq, -, hesc⟩, ⟨-, herr, hdone, hexcl, hinfo⟩,
    ⟨hnone, hempty, -, hack, hsample⟩, hprog, hwf⟩ := h
  have hvalid := hnone hs
  have hb : s.busy = true := hbusy.2 fun hidle => by rw [hidle] at hs; cases hs
  have hd : s.done = false := hexcl hb
  have he : s.err = false := by simpa [hd] using hdone
  have hem : s.isEmpty = false := by simpa [hvalid] using hempty
  have ha : s.ack = false := by simpa [hvalid] using hack
  have hsa : s.sample = false := by simpa [hvalid] using hsample
  have hst : s.status = 0x01#8 :=
    status_busy_alone ⟨hb, hd, he, hvalid, hem, ha, hsa, (status_reserved_iff _).1 hstatus⟩
  have hcode : s.errcode = 0#8 := by simpa [he] using herr
  have hqueue : s.txq = [] := Decidable.byContradiction fun hne => by
    rw [htxq.1 hne] at hs; cases hs
  exact ⟨hs, hctrl, hop, hst, hcode, hinfo he, hqueue, hesc, hprog, hwf⟩

theorem DecInv.ack_eq {s : State} (h : DecInv s) : s.ack = false := by rw [State.ack, h.status]; decide

theorem DecInv.sample_eq {s : State} (h : DecInv s) : s.sample = false := by rw [State.sample, h.status]; decide

theorem DecInv.err_eq {s : State} (h : DecInv s) : s.err = false := by rw [State.err, h.status]; decide

theorem DecInv.inv {s : State} (h : DecInv s) : Inv s := by
  have hbusy : s.busy = true := by rw [State.busy, h.status]; decide
  have hdone : s.done = false := by rw [State.done, h.status]; decide
  have hvalid : s.rxValid = false := by rw [State.rxValid, h.status]; decide
  have hempty : s.isEmpty = false := by rw [State.isEmpty, h.status]; decide
  have hidle : s.fsm ≠ .idle := fun hf => by have hrun := h.running; rw [hf] at hrun; cases hrun
  have hemit : s.fsm ≠ .encEmit := fun hf => by have hrun := h.running; rw [hf] at hrun; cases hrun
  refine ⟨⟨h.ctrl, h.op, by rw [h.status]; decide, by rw [h.errcode]; decide⟩, ?_, ?_, ?_, h.progress, h.wf⟩
  · simpa [SequencerSound, hbusy, hidle, hemit, h.txq] using h.esc
  · simp [ReportSound, h.errcode, h.errbyte, h.err_eq, hdone, legalErrcodes]
  · simp [PacketSound, hvalid, hempty, h.ack_eq, h.sample_eq]

/-! ### The start of a DEC and its ends -/

/-- `DEC_start()` after the start actions leaves BUSY alone in STATUS (44_frame_decoder.md R191). -/
theorem decInv_decBegin {opc : Byte} {s : State} (h : Inv s) (htxq : s.txq = []) (hopc : opc &&& 0xF0#8 = 0#8) :
    DecInv (decBegin (startActions opc s)) := by
  obtain ⟨⟨hctrl, -, hstatus, -⟩, -, -, -, -, hwf⟩ := h
  have htop := (status_reserved_iff _).1 hstatus
  refine ⟨rfl, hctrl, hopc, ?_, rfl, rfl, htxq, by simp, by simp [PayloadProgress], hwf⟩
  exact status_busy_alone (by simp [busyBit, htop])

/-- An error of a DEC gives up the packet and keeps the invariant (44_frame_decoder.md R203). -/
theorem DecInv.inv_raiseDec {s : State} (h : DecInv s) (e : ErrorKind) (info : Byte) : Inv (raiseDec e info s) := by
  have hbusy : (raiseDec e info s).busy = false := raise_busy ..
  have hdone : (raiseDec e info s).done = true := raise_done ..
  have herr : (raiseDec e info s).err = true := raise_err ..
  have hvalid : (raiseDec e info s).rxValid = false := by simp [State.rxValid, rxValidBit]
  have hempty : (raiseDec e info s).isEmpty = false := by simp [State.isEmpty, emptyBit]
  have hack : (raiseDec e info s).ack = false := by simpa [State.ack, ackBit] using h.ack_eq
  have hsample : (raiseDec e info s).sample = false := by simpa [State.sample, sampleBit] using h.sample_eq
  have hstatus : (raiseDec e info s).status &&& 0x80#8 = 0#8 := by rw [raiseDec_status, h.status]; decide
  refine ⟨⟨h.ctrl, h.op, hstatus, errcode_reserved_of_legal (errcodeOf_legal e)⟩, sequencerSound_idle hbusy rfl rfl rfl,
    ?_, ?_, payloadProgress_of_not_dec rfl, Memory.wf_forgetRxp _ h.wf⟩
  · simp [ReportSound, errcodeOf_legal, errcodeOf_ne_zero, hbusy, hdone, herr]
  · simp [PacketSound, Fsm.isDec, hvalid, hempty, hack, hsample]

/-- A successful DEC hands over a packet whose payload it has written (44_frame_decoder.md R198, R200). -/
theorem DecInv.inv_packetHeld {s : State} (h : DecInv s) (hs : s.fsm = .decEof) : Inv (packetHeld s) := by
  have ⟨_, hseq, _⟩ := h.inv
  have hesc : s.esc = false := hseq.esc_false (by rw [hs]; rfl)
  have hpayload : ∀ i, i < s.rxLen.toNat → (s.rxp i).isSome = true := h.progress.2 (.inr hs)
  have hbusy : (packetHeld s).busy = false := finish_busy _
  have herr : (packetHeld s).err = false := by simpa [packetHeld, State.err, errBit] using h.err_eq
  have hvalid : (packetHeld s).rxValid = true := by simp [packetHeld, State.rxValid, rxValidBit]
  have hempty : (packetHeld s).isEmpty = (s.rxLen == 0#8) := by simp [packetHeld, State.isEmpty, emptyBit]
  have hack : (packetHeld s).ack = false := by simpa [packetHeld, State.ack, ackBit] using h.ack_eq
  have hsample : (packetHeld s).sample = false := by simpa [packetHeld, State.sample, sampleBit] using h.sample_eq
  have hstatus : (packetHeld s).status &&& 0x80#8 = 0#8 :=
    (status_reserved_iff _).2 (by simp [packetHeld, h.status]; decide)
  have herrcode : (packetHeld s).errcode = 0#8 := h.errcode
  have hlen : (packetHeld s).rxLen = s.rxLen := rfl
  refine ⟨⟨h.ctrl, h.op, hstatus, by rw [herrcode]; decide⟩, sequencerSound_idle hbusy rfl rfl hesc, ?_,
    ⟨fun hd => (nomatch hd), ?_, fun _ => hpayload, ?_, ?_⟩, payloadProgress_of_not_dec rfl, h.wf⟩
  · have herrbyte : (packetHeld s).errbyte = 0#8 := h.errbyte
    simp [ReportSound, legalErrcodes, hbusy, herr, herrcode, herrbyte]
  · simp [hempty, hvalid, hlen]
  · simp [hack]
  · simp [hsample]

/-! ### One raw byte -/

/-- A store at h.idx writes the entry there and keeps those that were written (44_frame_decoder.md R198). -/
theorem rxp_write_idx_isSome {s : State} {k : Nat} (v : Byte)
    (h : ∀ i, i < k → (s.rxp i).isSome = true) (i : Nat) (hi : i < k + 1) :
    ((s.mem.write (rxpBase + k) v).read (rxpBase + i)).isSome = true := by
  rcases Nat.lt_succ_iff_lt_or_eq.1 hi with hlt | rfl
  · exact Memory.isSome_read_write _ _ _ _ (h i hlt)
  · rw [Memory.read_write_same]; rfl

/-- Each payload byte fills the entry at h.idx, and the last ends the payload (44_frame_decoder.md R198). -/
theorem payloadProgress_deliverData {s : State} (h : PayloadProgress s) (hs : s.fsm = .decData) (v : Byte) :
    PayloadProgress (deliverData v s) := by
  obtain ⟨hlt, hwritten⟩ := h.1 hs
  have hidx : (s.idx + 1#8).toNat = s.idx.toNat + 1 := by
    have := s.rxLen.isLt
    rw [BitVec.toNat_add]; simp; omega
  have hfill := rxp_write_idx_isSome v hwritten
  by_cases hlast : s.idx + 1#8 = s.rxLen
  · have hlen : s.rxLen.toNat = s.idx.toNat + 1 := by rw [← hlast, hidx]
    refine ⟨fun hf => ?_, fun _ i hi => hfill i (hlen ▸ hi)⟩
    simp [deliverData, hlast] at hf
  · have hne : s.idx.toNat + 1 ≠ s.rxLen.toNat := fun he => hlast (BitVec.eq_of_toNat_eq (hidx.trans he))
    refine ⟨fun _ => ⟨?_, fun i hi => hfill i (hidx ▸ hi)⟩, fun hf => ?_⟩
    · have hnext : (deliverData v s).idx.toNat = s.idx.toNat + 1 := hidx
      rw [hnext]; exact Nat.lt_of_le_of_ne hlt hne
    · simp [deliverData, hlast] at hf

/-- The length byte opens the payload, or ends it at once when it is 0 (44_frame_decoder.md R197). -/
theorem payloadProgress_deliverLen (v : Byte) (s : State) : PayloadProgress (deliverLen v s) := by
  by_cases hv : v = 0#8
  · subst hv
    exact ⟨nofun, fun _ i hi => absurd hi (Nat.not_lt_zero i)⟩
  · have hpos : 0 < v.toNat := Nat.pos_of_ne_zero fun h0 => hv (BitVec.eq_of_toNat_eq h0)
    refine ⟨fun _ => ⟨hpos, fun i hi => absurd hi (Nat.not_lt_zero i)⟩, fun hf => ?_⟩
    simp [deliverLen, hv] at hf

theorem DecInv.decInv_deliver {s : State} (h : DecInv s) (hesc : s.esc = false) (v : Byte) : DecInv (deliver v s) := by
  have hidle {f : Fsm} (he : s.esc = true) : f.isBody = true := by rw [hesc] at he; cases he
  unfold deliver
  split
  next => exact { h with running := rfl, esc := hidle, progress := by simp [PayloadProgress, deliverAddr] }
  next => exact { h with running := rfl, esc := hidle, progress := by simp [PayloadProgress, deliverCmd] }
  next => exact { h with running := rfl, esc := hidle, progress := by simp [PayloadProgress, deliverState] }
  next =>
    have hrun : (deliverLen v s).fsm.isDec = true := by simp only [deliverLen]; split <;> rfl
    exact { h with running := hrun, esc := hidle, progress := payloadProgress_deliverLen v s }
  next hs =>
    have hrun : (deliverData v s).fsm.isDec = true := by simp only [deliverData]; split <;> rfl
    have hwf : (deliverData v s).mem.wf = true :=
      Memory.wf_write _ _ _ (Nat.le_trans (by decide) (Nat.le_add_right rxpBase _))
        (Nat.add_lt_add_left s.idx.isLt rxpBase) h.wf
    exact { h with running := hrun, esc := hidle, progress := payloadProgress_deliverData h.progress hs v, wf := hwf }
  next hs => exact { h with running := rfl, esc := hidle, progress := ⟨nofun, fun _ => h.progress.2 (.inl hs)⟩ }
  all_goals exact h

theorem DecInv.inv_decSofByte {s : State} (h : DecInv s) (r : Byte) : Inv (decSofByte r s) := by
  rcases decSofByte_cases r s with hb | hb <;> rw [hb]
  · exact DecInv.inv { h with running := rfl, esc := fun _ => rfl, progress := by simp [PayloadProgress] }
  · exact h.inv_raiseDec _ _

theorem DecInv.inv_unstuffStep {s : State} (h : DecInv s) (hs : s.fsm.isBody = true) (r : Byte) :
    Inv (unstuffStep r s) := by
  have hread : DecInv { s with esc := false } := { h with esc := by simp }
  rcases unstuffStep_cases r s with ⟨v, hb⟩ | hb | hb <;> rw [hb]
  · exact (hread.decInv_deliver rfl v).inv
  · exact hread.inv_raiseDec _ _
  · exact DecInv.inv { h with esc := fun _ => hs }

theorem DecInv.inv_decEofByte {s : State} (h : DecInv s) (hs : s.fsm = .decEof) (r : Byte) : Inv (decEofByte r s) := by
  rcases decEofByte_cases r s with ⟨e, info, hb⟩ | hb <;> rw [hb]
  · exact h.inv_raiseDec e info
  · exact h.inv_packetHeld hs

theorem DecInv.inv_decByte {s : State} (h : DecInv s) (r : Byte) : Inv (decByte r s) := by
  rcases decByte_cases r s h.running with ⟨-, hb⟩ | ⟨hs, hb⟩ | ⟨hs, hb⟩ <;> rw [hb]
  · exact h.inv_decSofByte r
  · exact h.inv_unstuffStep hs r
  · exact h.inv_decEofByte hs r

theorem inv_decStep {s : State} (h : Inv s) (hs : s.fsm.isDec = true) (p : Ports) : Inv (decStep p s) := by
  have hd := h.decInv hs
  rcases decStep_cases p s with he | he | ⟨r, rest, -, he⟩ <;> rw [he]
  · exact hd.inv_raiseDec _ _
  · exact h
  · exact DecInv.inv_decByte (s := { s with rxStream := rest }) { hd with } r

/-! ## Every step -/

/-- A start step keeps the invariant: the start actions clear the report and leave the block at rest, and each operation goes on
from there (30_encoding.md R95). -/
theorem inv_opStarts {i : Instr} {opc : Byte} {s t : State} (h : Inv s) (hb : s.busy = false)
    (hopc : opc &&& 0xF0#8 = 0#8) (ht : OpStarts i (startActions opc s) t) : Inv t := by
  have hu := inv_startActions h hb hopc
  have ⟨_, hseq, _⟩ := h
  obtain ⟨hfsm, htxq, hesc⟩ := hseq.of_not_busy hb
  cases ht with
  | nop => exact inv_finish hu hesc
  | dec => exact (decInv_decBegin h htxq hopc).inv
  | chkAck => exact inv_chkAck hu hfsm hesc
  | chkMeas => exact inv_chkMeas hu hfsm hesc
  | illegal => exact inv_raise hu _ _
  | enc _ _ he => exact inv_encBegin hu (startActions_done opc s) hesc he
  | encStart _ _ _ _ he => exact inv_encBegin (inv_loadStart hu) (startActions_done opc s) hesc he
  | encRead _ _ _ _ he => exact inv_encBegin (inv_loadRead hu) (startActions_done opc s) hesc he

theorem inv_exec {i : Instr} {s t : State} (h : Inv s) (he : exec i s = .next t) : Inv t := by
  rcases exec_next_cases he with ⟨-, rfl⟩ | ⟨ha, hop⟩
  · exact h
  · exact inv_opStarts h ((accepting_iff s).1 ha).2 (sentOpcode_reserved i) hop

theorem inv_blockStep {s : State} (h : Inv s) (p : Ports) : Inv (blockStep p s) := by
  rcases blockStep_cases p s with hb | ⟨hs, hb⟩ | ⟨hs, hb⟩ <;> rw [hb]
  · exact h
  · exact inv_encEmitStep h hs p
  · exact inv_decStep h hs p

theorem inv_reset : Inv State.reset := by
  refine ⟨?_, sequencerSound_idle rfl rfl rfl rfl, ?_, ?_, payloadProgress_of_not_dec rfl, rfl⟩
  · unfold ReservedBitsZero; decide
  · unfold ReportSound; decide
  · unfold PacketSound; decide

theorem inv_resetBlock (s : State) : Inv (resetBlock s) := inv_reset

/-- The fall of rst leaves the reset values (70_reset_and_hazards.md R330, R331). -/
theorem inv_sampleRst {s : State} (h : Inv s) (level : Bool) : Inv (sampleRst level s) := by
  unfold sampleRst
  split
  · exact h
  · split
    · exact inv_resetBlock s
    · exact h

theorem InputEffect.inv {i : Input} {s t : State} (h : Inv s) (he : InputEffect s i t) : Inv t := by
  cases he with
  | rst level => exact inv_sampleRst h level
  | ports p => exact inv_blockStep h p
  | rx bytes => exact h
  | op _ host j _ hj => exact inv_exec (s := { s with host := host }) h hj
  | store _ host a v => exact inv_hostStore (s := { s with host := host }) h a v
  | agent _ _ ha => cases ha; exact h

/-- Settles O42: the invariant is kept by each of the ways in which an input reaches the block. -/
theorem everyStepKeepsTheInvariant : Obligations.EveryStepKeepsTheInvariant := by
  intro s t h hstep
  rcases step_next_cases hstep with ⟨-, rfl⟩ | ⟨i, rest, -, hrun⟩
  · exact h
  · exact (runInput_inputEffect hrun).inv (s := { s with inputs := rest }) h

/-! ## The streams -/

/-- The two streams of the transport (20_memory.md R63). -/
def State.streams (s : State) : List Byte × List Byte := (s.rxStream, s.txStream)

theorem streams_eq_of_startFrame {s t : State} (h : t.startFrame = s.startFrame) : t.streams = s.streams :=
  Prod.ext (congrArg StartFrame.rxStream h) (congrArg StartFrame.txStream h)

theorem streams_raiseDec (e : ErrorKind) (info : Byte) (s : State) : (raiseDec e info s).streams = s.streams := rfl

theorem streams_deliver (v : Byte) (s : State) : (deliver v s).streams = s.streams := by
  unfold deliver
  split <;> rfl

theorem streams_decSofByte (r : Byte) (s : State) : (decSofByte r s).streams = s.streams := by
  rcases decSofByte_cases r s with hb | hb <;> rw [hb]
  · rfl
  · exact streams_raiseDec ..

theorem streams_unstuffStep (r : Byte) (s : State) : (unstuffStep r s).streams = s.streams := by
  rcases unstuffStep_cases r s with ⟨v, hb⟩ | hb | hb <;> rw [hb]
  · exact streams_deliver v { s with esc := false }
  · exact streams_raiseDec ..
  · rfl

theorem streams_decEofByte (r : Byte) (s : State) : (decEofByte r s).streams = s.streams := by
  rcases decEofByte_cases r s with ⟨e, info, hb⟩ | hb <;> rw [hb]
  · exact streams_raiseDec ..
  · rfl

/-- A DEC reads no byte beside the one it was handed. -/
theorem streams_decByte (r : Byte) (s : State) (hs : s.fsm.isDec = true) : (decByte r s).streams = s.streams := by
  rcases decByte_cases r s hs with ⟨-, hb⟩ | ⟨-, hb⟩ | ⟨-, hb⟩ <;> rw [hb]
  · exact streams_decSofByte r s
  · exact streams_unstuffStep r s
  · exact streams_decEofByte r s

theorem streams_hostStore (a : Addr) (v : Byte) (s : State) : (hostStore a v s).streams = s.streams := by
  unfold hostStore
  split
  · rcases regWrite_cases a v s with hw | ⟨_, _, _, hw⟩ | ⟨_, _, hw⟩ <;> rw [hw] <;> rfl
  · rfl

theorem streams_sampleRst (level : Bool) (s : State) : (sampleRst level s).streams = s.streams := by
  unfold sampleRst
  split
  · rfl
  · split <;> rfl

/-- How the streams may move on a step with the input `i`: raw bytes come in at the end of RX, or a DEC takes the first; the first
byte of h.txq goes out at the end of TX (20_memory.md R65, R66). -/
def StreamsMove (i : Input) (s t : State) : Prop :=
  ((∃ more : List Byte, t.rxStream = s.rxStream ++ more ∧ (more ≠ [] → i = .rx more)) ∨
      (s.fsm.isDec = true ∧ ∃ r, s.rxStream = r :: t.rxStream)) ∧
    (t.txStream = s.txStream ∨ (s.fsm = .encEmit ∧ ∃ b q, s.txq = b :: q ∧ t.txStream = s.txStream ++ [b]))

theorem StreamsMove.of_streams_eq {i : Input} {s t : State} (h : t.streams = s.streams) : StreamsMove i s t := by
  obtain ⟨hrx, htx⟩ := Prod.ext_iff.1 h
  exact ⟨.inl ⟨[], hrx.trans (List.append_nil _).symm, fun hne => absurd rfl hne⟩, .inl htx⟩

theorem StreamsMove.of_sent {i : Input} {s t : State} {b : Byte} {q : List Byte} (hs : s.fsm = .encEmit)
    (hq : s.txq = b :: q) (hrx : t.rxStream = s.rxStream) (htx : t.txStream = s.txStream ++ [b]) : StreamsMove i s t :=
  ⟨.inl ⟨[], hrx.trans (List.append_nil _).symm, fun hne => absurd rfl hne⟩, .inr ⟨hs, b, q, hq, htx⟩⟩

theorem streamsMove_encEmitStep (i : Input) (p : Ports) {s : State} (hs : s.fsm = .encEmit) :
    StreamsMove i s (encEmitStep p s) := by
  rcases encEmitStep_cases p s with he | he | ⟨b, q, hq, ⟨-, he⟩ | ⟨-, he⟩⟩ <;> rw [he]
  · exact .of_streams_eq rfl
  · exact .of_streams_eq rfl
  · exact .of_sent hs hq rfl rfl
  · exact .of_sent hs hq rfl rfl

theorem streamsMove_decStep (i : Input) (p : Ports) {s : State} (hs : s.fsm.isDec = true) :
    StreamsMove i s (decStep p s) := by
  rcases decStep_cases p s with he | he | ⟨r, rest, hrs, he⟩ <;> rw [he]
  · exact .of_streams_eq (streams_raiseDec ..)
  · exact .of_streams_eq rfl
  · obtain ⟨hrx, htx⟩ := Prod.ext_iff.1 (streams_decByte r { s with rxStream := rest } hs)
    exact ⟨.inr ⟨hs, r, hrs.trans (congrArg (r :: ·) hrx.symm)⟩, .inl htx⟩

theorem streamsMove_blockStep (i : Input) (p : Ports) (s : State) : StreamsMove i s (blockStep p s) := by
  rcases blockStep_cases p s with hb | ⟨hs, hb⟩ | ⟨hs, hb⟩ <;> rw [hb]
  · exact .of_streams_eq rfl
  · exact streamsMove_encEmitStep i p hs
  · exact streamsMove_decStep i p hs

theorem InputEffect.streamsMove {i : Input} {s t : State} (h : InputEffect s i t) : StreamsMove i s t := by
  cases h with
  | rst level => exact .of_streams_eq (streams_sampleRst level s)
  | ports p => exact streamsMove_blockStep _ p s
  | rx bytes => exact ⟨.inl ⟨bytes, rfl, fun _ => rfl⟩, .inl rfl⟩
  | op _ host j _ hj =>
    have hstreams : t.streams = ({ s with host := host } : State).streams :=
      streams_eq_of_startFrame (exec_startFrame hj)
    exact .of_streams_eq hstreams
  | store _ host a v => exact .of_streams_eq (streams_hostStore a v { s with host := host })
  | agent _ _ ha => cases ha; exact .of_streams_eq rfl

/-- Settles O46: `StreamsMove` holds of each of the ways in which an input reaches the block. -/
theorem streamsMoveOneByteInOrder : Obligations.StreamsMoveOneByteInOrder := by
  intro s t hstep
  rcases step_next_cases hstep with ⟨-, rfl⟩ | ⟨i, rest, hin, hrun⟩
  · exact ⟨.inl ⟨[], (List.append_nil _).symm, fun hne => absurd rfl hne⟩, .inl rfl⟩
  · obtain ⟨hrx, htx⟩ := (runInput_inputEffect hrun).streamsMove
    refine ⟨hrx.imp_left fun ⟨more, hmore, hi⟩ => ⟨more, hmore, fun hne => ⟨rest, ?_⟩⟩, htx⟩
    rw [hin, hi hne]

/-! ## The host's accesses -/

/-- A step whose input is a host's access makes it (20_memory.md R61). -/
theorem step_hostAct {s : State} {act : HostAct} {rest : List Input} (h : HostActs s act rest) :
    step s = hostAct act { s with inputs := rest } := by
  have hin : s.inputs = .host act :: rest := h
  simp only [step, hin, runInput]

theorem step_hostRead {s : State} {a : Addr} {rest : List Input} (h : HostActs s (.read a) rest) :
    step s = .next (hostRead a { s with inputs := rest }) := step_hostAct h

/-- A block that does not accept ignores every write, that of OP included (20_memory.md R75, 70_reset_and_hazards.md R330). -/
theorem hostWrite_of_not_accepting (a : Addr) (v : Byte) {s : State} (h : s.accepting = false) :
    hostWrite a v s = .next s := by
  unfold hostWrite
  split
  · exact exec_of_not_accepting _ s h
  · simp [hostStore, h]

/-- Settles O25: a busy block does not accept, and every host read is answered. -/
theorem busyBlockIgnoresWrites : Obligations.BusyBlockIgnoresWrites := by
  intro s a rest hb
  refine ⟨fun v h => ?_, fun h => ⟨_, step_hostRead h⟩⟩
  have hna : ({ s with inputs := rest } : State).accepting = false := by
    have hbusy : ({ s with inputs := rest } : State).busy = true := hb
    simp [State.accepting, hbusy]
  exact (step_hostAct h).trans (hostWrite_of_not_accepting a v hna)

/-- The addresses below 0x400 that the register map does not mark RW, but for OP (20_memory.md R62, R72, R74). -/
def ignoresWrites (n : Nat) : Prop := (0x002 ≤ n ∧ n ≤ 0x004) ∨ (0x008 ≤ n ∧ n ≤ 0x0FF) ∨ 0x200 ≤ n

theorem regWrite_ignored {a : Addr} (h : ignoresWrites a.toNat) (v : Byte) (s : State) : regWrite a v s = s := by
  have htxp : ¬ (txpBase ≤ a.toNat ∧ a.toNat < rxpBase) := by
    unfold ignoresWrites at h; unfold txpBase rxpBase; omega
  unfold ignoresWrites at h
  simp only [regWrite, if_neg htxp]
  repeat rw [if_neg (by omega)]

theorem hostWrite_ignored {a : Addr} (h : ignoresWrites a.toNat) (v : Byte) (s : State) : hostWrite a v s = .next s := by
  have hop : a ≠ opAddr := by
    rintro rfl
    exact absurd h (by unfold ignoresWrites; decide)
  simp [hostWrite, hop, hostStore, regWrite_ignored h]

/-- Settles O27: the register write stores at no such address, and an unmapped address holds 0x00. -/
theorem unmappedAndReadOnlyAddressesIgnoreWrites : Obligations.UnmappedAndReadOnlyAddressesIgnoreWrites := by
  intro s a rest
  refine ⟨fun v ha h => ?_, fun ha h => ?_⟩
  · exact (step_hostAct h).trans (hostWrite_ignored ha v _)
  · have hrx : isRxAddress a.toNat = true → s.fsm.isDec = false := fun hr => by
      rw [isRxAddress_iff] at hr; omega
    rw [step_hostRead h, hostRead_of_value a { s with inputs := rest } 0x00#8 hrx (regValue_unmapped _ _ ha)]

/-- The TXP entries in the register map (20_memory.md R62). -/
theorem regValue_txp (s : State) {i : Nat} (hi : i < 256) : regValue s (regAddr (.txp i)).toNat = s.txp i := by
  have haddr : (regAddr (.txp i)).toNat = 0x100 + i := toNat_txpAddr hi
  rw [haddr, regValue_payload s _ (by omega) (by omega)]; rfl

/-- The RXP entries in the register map (20_memory.md R62). -/
theorem regValue_rxp (s : State) {i : Nat} (hi : i < 256) : regValue s (regAddr (.rxp i)).toNat = s.rxp i := by
  have haddr : (regAddr (.rxp i)).toNat = 0x200 + i := by simp only [regAddr, rxpBase, BitVec.toNat_ofNat]; omega
  rw [haddr, regValue_payload s _ (by omega) (by omega)]; rfl

theorem isRxAddress_txp {i : Nat} (hi : i < 256) : isRxAddress (regAddr (.txp i)).toNat = false := by
  have haddr : (regAddr (.txp i)).toNat = 0x100 + i := toNat_txpAddr hi
  rw [haddr, Bool.eq_false_iff, ne_eq, isRxAddress_iff]; omega

theorem hostRdata_hostRead {a : Addr} {s : State} {v : Byte} (h : isRxAddress a.toNat = true → s.fsm.isDec = false)
    (hv : regValue s a.toNat = some v) : (hostRead a s).hostRdata = v := by
  rw [hostRead_of_value a s v h hv]

/-- Settles O28: a read shows what the register map holds at the address, and `hostRead_frame` says that nothing else moves. -/
theorem readsReturnTheNamedRegister : Obligations.ReadsReturnTheNamedRegister := by
  refine ⟨fun s a rest h => ⟨_, step_hostRead h, ?_⟩, fun s n rest hn h => ⟨_, step_hostRead h, ?_⟩⟩
  · exact hostRead_frame a { s with inputs := rest }
  · cases n
    case txp i =>
      have hi := (wellFormed_txp_iff i).1 hn
      intro v hv
      exact hostRdata_hostRead (fun hr => by rw [isRxAddress_txp hi] at hr; cases hr) ((regValue_txp _ hi).trans hv)
    case rxp i =>
      have hi := (wellFormed_rxp_iff i).1 hn
      intro hd v hv
      exact hostRdata_hostRead (fun _ => hd) ((regValue_rxp _ hi).trans hv)
    case rxAddr | rxCmd | rxState | rxLen | rxCksum | rxCksumCalc =>
      intro hd
      exact hostRdata_hostRead (fun _ => hd) rfl
    case ctrl | op | status | errcode | errbyte | txAddr | txCmd | txLen | txCksum =>
      exact hostRdata_hostRead (fun hr => absurd hr (by decide)) rfl

/-! ## The transport's side of a running operation -/

/-- A step whose input is a block step out of reset. -/
theorem step_ports {s : State} {p : Ports} {rest : List Input} (h : BlockSteps s p rest) :
    step s = .next (blockStep p { s with inputs := rest }) := by
  simp only [step, h.1, runInput]

/-- STATUS after an error of a DEC (60_exceptions.md R295, 44_frame_decoder.md R203). -/
theorem statusRaise_statusPacket (x : Byte) : statusRaise (statusPacket x false false) = (x &&& 0xE0#8) ||| 0x06#8 := by
  revert x; decide

theorem statusRaise_eq (x : Byte) : statusRaise x = (x &&& 0xF8#8) ||| 0x06#8 := by
  revert x; decide

theorem statusFinish_eq (x : Byte) : statusFinish x = (x &&& 0xFC#8) ||| 0x02#8 := by
  revert x; decide

/-- Every error of a DEC ends it as 60_exceptions.md R295 and 44_frame_decoder.md R203 say. -/
theorem endsInDecError_raiseDec (e : ErrorKind) (info : Byte) (s : State) :
    EndsInDecError s (raiseDec e info s) (errcodeOf e) info :=
  ⟨statusRaise_statusPacket s.status, rfl, rfl, rfl, rfl, rfl, rfl, rfl, rfl, rfl, rfl, rfl,
    fun _ ha => raiseDec_read_txp e info s _ ha, rfl, rfl, rfl, rfl, rfl⟩

theorem rxOffer_none {p : Ports} {s : State} (h : p.rxValid = false ∨ s.rxStream = []) : rxOffer p s = none := by
  rcases h with h | h <;> simp [rxOffer, h]

/-- Settles O36: a running DEC takes `decStep`, whose first test is rx_err. -/
theorem decHoldsOrEndsWithTransport : Obligations.DecHoldsOrEndsWithTransport := by
  intro s p rest hs hp
  rw [step_ports hp, blockStep_of_dec p { s with inputs := rest } hp.2 hs]
  refine ⟨fun herr => ?_, fun herr hoff => ?_⟩
  · refine ⟨_, rfl, ?_⟩
    rw [decStep, if_pos herr]
    exact ⟨rfl, rfl, endsInDecError_raiseDec .transport 0x00#8 s⟩
  · have hnone : rxOffer p { s with inputs := rest } = none := rxOffer_none hoff
    simp [decStep, herr, hnone]

/-- Settles O37: ENC_EMIT takes `encEmitStep`, whose first test is tx_err. -/
theorem encEmitsOneByteAStep : Obligations.EncEmitsOneByteAStep := by
  intro s p rest b q hs hq hp
  rw [step_ports hp, blockStep_of_encEmit p { s with inputs := rest } hp.2 hs]
  refine ⟨fun herr => ?_, fun herr hready hne => ?_, fun herr hready hnil => ?_, fun herr hready => ?_⟩
  · simp [encEmitStep, herr, raise, statusRaise_eq, errcodeOf]
  · obtain ⟨c, l, rfl⟩ := List.exists_cons_of_ne_nil hne
    simp [encEmitStep, herr, hready, hq]
  · simp [encEmitStep, herr, hready, hq, hnil, finish, statusFinish_eq]
  · simp [encEmitStep, herr, hready]

end Sys2Proof.Machine
end

section
/-! The family 30_encoding.md: the decoder of operations and of command frames (O1 to O4), the lengths of frames (O7), and how an
operation reaches `exec` (O9, O10) and what the wire commands and the reserved codes do there (O16, O18). -/

namespace Sys2Proof.Machine

/-! ## The decoder of operations -/

/-- Every byte written to OP names an operation of the OP level (30_encoding.md R91). -/
theorem format_decodeOp (v : Byte) : (decodeOp v).format = .op := by
  revert v; decide

/-- The code of the operation that a byte names is the byte's low nibble (30_encoding.md R90, R92). -/
theorem opcode_decodeOp (v : Byte) : opcode (decodeOp v) = v &&& 0x0F#8 := by
  revert v; decide

/-- Bits 7:4 of a byte written to OP are ignored (30_encoding.md R90). -/
theorem decodeOp_lowNibble (v : Byte) : decodeOp (v &&& 0x0F#8) = decodeOp v := by
  revert v; decide

/-- The code of an operation names it (30_encoding.md R92). -/
theorem decodeOp_opcode {i : Instr} (hi : i.format = .op) : decodeOp (opcode i) = i := by
  cases i with
  | wireStartMeasurement | wireReadMeasuredValues => cases hi
  | _ => rfl

/-- Settles O1: the instruction is `decodeOp v`, and any other with that code is decoded from the same low nibble. -/
theorem operationDecodingIsTotalOnLowNibble : Obligations.OperationDecodingIsTotalOnLowNibble := by
  intro v
  refine ⟨decodeOp v, format_decodeOp v, rfl, opcode_decodeOp v, fun j hj hcode => ?_⟩
  calc j = decodeOp (opcode j) := (decodeOp_opcode hj).symm
    _ = decodeOp (v &&& 0x0F#8) := by rw [hcode]
    _ = decodeOp v := decodeOp_lowNibble v

/-- Settles O2: the words of the encoder decode by the round trip of each instruction, and 0xF3 has the low nibble of ENC_START. -/
theorem writtenOutWordsDecode : Obligations.WrittenOutWordsDecode := by
  have hhigh : decode .op [0xF3#8] = .ok .encStart [] :=
    congrArg (DecodeResult.ok · []) (decodeOp_lowNibble 0xF3#8).symm
  have hword : decodeTableWord 8 0x07 = some .reserved7 := congrArg some (decodeOp_opcode (i := .reserved7) rfl)
  exact ⟨Laws.RoundTrip.enc, Laws.RoundTrip.dec, Laws.RoundTrip.chkAck, hhigh, hword, Laws.RoundTrip.wireStartMeasurement,
    Laws.RoundTrip.wireReadMeasuredValues, rfl⟩

/-! ## Command frames, read back -/

/-- Unstuffing takes exactly the raw bytes of the logical bytes that it gives (41_byte_codec.md R127). -/
theorem unstuffN_stuffSeq (l rest : List Byte) :
    unstuffN l.length (stuffSeq l ++ rest) = .got l (stuffSeq l).length rest := by
  induction l with
  | nil => rfl
  | cons b l ih => simp [unstuffN, List.append_assoc, unstuff1_stuff, ih]

/-- A raw command frame is its header, its payload, its checksum and the delimiter, each stuffed by itself
(30_encoding.md R96). -/
theorem encodeFrame_fields (a c : Byte) (p : List Byte) :
    encodeFrame a c p = Config.delimiter ::
      (stuffSeq [a, c, lenByte p] ++ (stuffSeq p ++ (stuff (cks (commandBody a c p)) ++ [Config.delimiter]))) := by
  simp [encodeFrame, frameOf, commandBody, stuffSeq_append]

/-- The reader of command frames accepts raw bytes whose fields unstuff one after the other, with the right checksum before the
last byte, the delimiter. -/
theorem parseCommandFrame_of_fields {a c n : Byte} {p raws rest rest' : List Byte} {t t' t'' : Nat}
    (hheader : unstuffN 3 raws = .got [a, c, n] t rest) (hpayload : unstuffN n.toNat rest = .got p t' rest')
    (hcksum : unstuff1 rest' = .got (cks (a :: c :: n :: p)) t'' [Config.delimiter]) :
    parseCommandFrame (Config.delimiter :: raws) = some (a, c, p) := by
  simp [parseCommandFrame, hheader, hpayload, hcksum]

/-- Settles O4: header, payload and checksum of the frame unstuff one after the other, since LEN is the payload's length. -/
theorem commandFramesParseBack : Obligations.CommandFramesParseBack := by
  intro a c p hp
  have hpayload (rest : List Byte) :
      unstuffN (lenByte p).toNat (stuffSeq p ++ rest) = .got p (stuffSeq p).length rest := by
    rw [lenByte_toNat p hp]; exact unstuffN_stuffSeq p rest
  rw [encodeFrame_fields]
  exact parseCommandFrame_of_fields (unstuffN_stuffSeq [a, c, lenByte p] _) (hpayload _) (unstuff1_stuff _ _)

/-! ## The published frames -/

/-- The frame of a wire command is read back as that command (30_encoding.md R101). -/
theorem decodeWireFrame_encodeWireFrame {i : Instr} (hi : i.format = .wireCmd) :
    decodeWireFrame (encodeWireFrame i) = some i := by
  have hlen : (wirePayload i).length ≤ 255 := by cases i <;> decide
  have hcmd : decodeWireCmd (opcode i) = some i := by
    cases i with
    | wireStartMeasurement | wireReadMeasuredValues => rfl
    | _ => cases hi
  simp [decodeWireFrame, encodeWireFrame, commandFramesParseBack _ _ _ hlen, hcmd]

/-- The raw frame of start measurement (95_test_vectors.md S-2). -/
theorem encodeWireFrame_start : encodeWireFrame .wireStartMeasurement =
    [0x7E#8, 0x00#8, 0x00#8, 0x02#8, 0x01#8, 0x03#8, 0xF9#8, 0x7E#8] := by decide

/-- The raw frame of read measured values (95_test_vectors.md S-3). -/
theorem encodeWireFrame_read : encodeWireFrame .wireReadMeasuredValues =
    [0x7E#8, 0x00#8, 0x03#8, 0x00#8, 0xFC#8, 0x7E#8] := by decide

/-- Settles O3: the bytes are computed, and `decodeWireFrame_encodeWireFrame` reads them back. -/
theorem wireCommandFramesAreThePublishedBytes : Obligations.WireCommandFramesAreThePublishedBytes := by
  refine ⟨encodeWireFrame_start, encodeWireFrame_read, ?_, ?_⟩
  · rw [← encodeWireFrame_start]; exact decodeWireFrame_encodeWireFrame rfl
  · rw [← encodeWireFrame_read]; exact decodeWireFrame_encodeWireFrame rfl

/-! ## The lengths of frames -/

theorem one_le_stuff_length (b : Byte) : 1 ≤ (stuff b).length := by
  rw [stuff_length]; split <;> decide

theorem length_le_stuffSeq_length (l : List Byte) : l.length ≤ (stuffSeq l).length := by
  induction l with
  | nil => exact Nat.le_refl 0
  | cons b l ih =>
    have hb := one_le_stuff_length b
    simp only [stuffSeq_cons, List.length_append, List.length_cons]
    omega

theorem frameOf_length (body : List Byte) :
    (frameOf body).length = (stuffSeq body).length + (stuff (cks body)).length + 2 := by
  simp [frameOf, stuffSeq_append, Nat.add_assoc]

/-- Two delimiters stand around the body and its checksum, and stuffing makes one or two raw bytes of each byte. -/
theorem frameOf_length_bounds (body : List Byte) :
    body.length + 3 ≤ (frameOf body).length ∧ (frameOf body).length ≤ 2 * body.length + 4 := by
  have hlo := length_le_stuffSeq_length body
  have hhi := stuffSeq_length_le body
  have hlo' := one_le_stuff_length (cks body)
  have hhi' := stuff_length_le (cks body)
  rw [frameOf_length]
  omega

/-- The longest payload has a length byte, 0xFF, that is not stuffed (30_encoding.md R98). -/
theorem stuff_lenByte_length_le (p : List Byte) (hp : p.length ≤ 255) : (stuff (lenByte p)).length + p.length ≤ 256 := by
  by_cases hmax : p.length = 255
  · have hb : stuff (lenByte p) = [0xFF#8] := by rw [lenByte, hmax]; decide
    rw [hb, hmax]; decide
  · have hb := stuff_length_le (lenByte p)
    omega

/-- The bound of a frame whose length byte is followed by the payload, over all payloads (44_frame_decoder.md R208). -/
theorem frameOf_length_le_max (header p : List Byte) (hp : p.length ≤ 255) :
    (frameOf (header ++ lenByte p :: p)).length ≤ 2 * header.length + 515 := by
  have hheader := stuffSeq_length_le header
  have hlen := stuff_lenByte_length_le p hp
  have hpayload := stuffSeq_length_le p
  have hcksum := stuff_length_le (cks (header ++ lenByte p :: p))
  rw [frameOf_length, stuffSeq_append, stuffSeq_cons, List.length_append, List.length_append]
  omega

/-- Settles O7: a command body has 3 and a response body 4 bytes before the payload, 2 and 3 of them before the length byte. -/
theorem frameLengthsStayInBounds : Obligations.FrameLengthsStayInBounds := by
  intro a c st p hp
  obtain ⟨hcmdLo, hcmdHi⟩ := frameOf_length_bounds (commandBody a c p)
  obtain ⟨hrespLo, hrespHi⟩ := frameOf_length_bounds (responseBody a c st p)
  simp only [commandBody, responseBody, List.length_cons] at hcmdLo hcmdHi hrespLo hrespHi
  refine ⟨⟨?_, ?_, frameOf_length_le_max [a, c] p hp⟩, ⟨?_, ?_, frameOf_length_le_max [a, c, st] p hp⟩⟩
  all_goals simp only [encodeFrame, commandBody, responseFrame, responseBody]; omega

/-! ## How an operation reaches `exec` -/

/-- A host write of OP runs the operation that the byte names (30_encoding.md R95). -/
theorem hostWrite_op (v : Byte) (s : State) : hostWrite opAddr v s = exec (decodeOp v) s := if_pos rfl

/-- A host write of any other register stores (20_memory.md R71). -/
theorem hostWrite_of_ne_op {a : Addr} (ha : a ≠ opAddr) (v : Byte) (s : State) : hostWrite a v s = .next (hostStore a v s) :=
  if_neg ha

theorem decodeOp_of_decode {v : Byte} {i : Instr} {rest : List Byte} (h : decode .op [v] = .ok i rest) : decodeOp v = i := by
  cases h; rfl

/-- A placed word is the next write of OP, and the block it leaves behind is idle (logs 2 and 16). -/
theorem step_withFetchWord (s : State) (nbits w : Nat) :
    step (s.withFetchWord nbits w) = exec (decodeOp (tableByte w)) (idleBlock s) :=
  (step_hostAct (s := s.withFetchWord nbits w) rfl).trans (hostWrite_op _ _)

/-- Settles O9: a write of OP is run by `hostWrite_op`, a wire command by `hostAct`, and a placed word is a write of OP. -/
theorem stepRunsTheWrittenOperation : Obligations.StepRunsTheWrittenOperation := by
  refine ⟨fun s v i rest h hi => ?_, fun s c i rest h hi => ?_, fun s nbits w i hi => ?_⟩
  · rw [step_hostAct h, ← decodeOp_of_decode hi]
    exact hostWrite_op _ _
  · simp only [step_hostAct h, hostAct, hi]
  · have hop : decodeOp (tableByte w) = i := Option.some.inj hi
    rw [step_withFetchWord, hop]

/-- A step whose input is a turn of the host agent with a statement to run (46_host_operations.md R272). -/
theorem step_turn {s : State} {c : HostCtl} {l : List HostCtl} {rest : List Input} (hin : s.inputs = .turn :: rest)
    (hscript : s.host.script = c :: l) : step s = runCtl c l { s with inputs := rest } := by
  simp only [step, hin, runInput, hostTurn, hscript]

/-- Settles O10: both statements are host writes, `op i` that of the code of `i` to OP. -/
theorem hostTurnRunsTheScriptedOperation : Obligations.HostTurnRunsTheScriptedOperation := by
  refine ⟨fun s i l rest hin hscript hi => ?_, fun s n v l rest hin hscript hn => ?_⟩
  · rw [step_turn hin hscript, runCtl, hostWrite_op, decodeOp_opcode hi]; rfl
  · rw [step_turn hin hscript, runCtl, hostWrite_of_ne_op hn]; rfl

/-! ## The wire commands and the reserved codes -/

/-- STATUS after the start of a sending operation (30_encoding.md R95, 43_frame_encoder.md R161). -/
theorem status_sending (x : Byte) : setBit (statusStart x) busyBit true = (x &&& 0x98#8) ||| 0x01#8 := by
  revert x; decide

/-- STATUS after an operation that ends at once with an error (30_encoding.md R95, 60_exceptions.md R295). -/
theorem status_endedWith (x : Byte) : statusRaise (statusStart x) = (x &&& 0x98#8) ||| 0x06#8 := by
  revert x; decide

/-- An accepted operation with its payload written starts sending the frame of the TX registers (43_frame_encoder.md R161). -/
theorem encBegin_startActions (i : Instr) {s : State} {p : List Byte} (hp : s.txPayload = some p) :
    encBegin (startActions (opcode i) s) =
      .next (sending i (cks (commandBody s.txAddr s.txCmd p)) (encodeFrame s.txAddr s.txCmd p) s) := by
  have hp' : (startActions (opcode i) s).txPayload = some p := hp
  simp only [encBegin, hp', startActions_status, status_sending]
  rfl

/-- What an accepted ENC_START does, and the wire command 0x00 that it sends (43_frame_encoder.md R163). -/
theorem accept_loadStart {s : State} (hs : s.accepting = true) :
    accept (opcode .encStart) (fun u => encBegin (loadStart u)) s = .next (startSent s) := by
  have hcks : cks (commandBody 0x00#8 0x00#8 [0x01#8, 0x03#8]) = 0xF9#8 := by decide
  have hframe : encodeFrame 0x00#8 0x00#8 [0x01#8, 0x03#8] = _ := encodeWireFrame_start
  have hbegin := encBegin_startActions .encStart (txPayload_loadStart s)
  simp only [loadStart, hcks, hframe] at hbegin
  exact (accept_of_accepting _ _ s hs).trans hbegin

/-- What an accepted ENC_READ does, and the wire command 0x03 that it sends (43_frame_encoder.md R164). -/
theorem accept_loadRead {s : State} (hs : s.accepting = true) :
    accept (opcode .encRead) (fun u => encBegin (loadRead u)) s = .next (readSent s) := by
  have hcks : cks (commandBody 0x00#8 0x03#8 []) = 0xFC#8 := by decide
  have hframe : encodeFrame 0x00#8 0x03#8 [] = _ := encodeWireFrame_read
  have hbegin := encBegin_startActions .encRead (txPayload_loadRead s)
  simp only [loadRead, hcks, hframe] at hbegin
  exact (accept_of_accepting _ _ s hs).trans hbegin

/-- Settles O16: each wire command is accepted under the code of the block operation that sends it, with the same start. -/
theorem wireCommandsAreSentByTheirBlockOperation : Obligations.WireCommandsAreSentByTheirBlockOperation :=
  fun _ hs => ⟨accept_loadStart hs, accept_loadRead hs⟩

/-- A reserved code is accepted as every operation is, and raises ILLEGAL_OP (30_encoding.md R93). -/
theorem exec_reserved {i : Instr} (hi : i ∈ reservedOps) (s : State) : exec i s = accept (opcode i) illegalOp s := by
  simp only [reservedOps, List.mem_cons, List.not_mem_nil, or_false] at hi
  rcases hi with rfl | rfl | rfl | rfl | rfl | rfl | rfl | rfl | rfl <;> rfl

/-- An operation that raises an error right after its start actions (30_encoding.md R95, 60_exceptions.md R295). -/
theorem raise_startActions (i : Instr) (e : ErrorKind) (info : Byte) (s : State) :
    raise e info (startActions (opcode i) s) = endedWith i (errcodeOf e) info s := by
  simp only [raise, startActions_status, status_endedWith]
  rfl

/-- Settles O18: the start actions and `raise`; a block that is not busy rests, so `raise` leaves its sequencer as it was. -/
theorem reservedCodesEndWithIllegalOp : Obligations.ReservedCodesEndWithIllegalOp := by
  intro i hi s hs
  refine ⟨?_, fun hseq => ?_⟩
  · rw [exec_reserved hi, accept_of_accepting _ _ s hs]
    exact congrArg Host.Outcome.next (raise_startActions i .illegalOp 0x00#8 s)
  · obtain ⟨hfsm, htxq, hesc⟩ := hseq.of_not_busy ((accepting_iff s).1 hs).2
    simp only [endedWith, hfsm, htxq, hesc]

end Sys2Proof.Machine
end

section
/-! The family 41_byte_codec.md: stuffing and unstuffing of byte sequences (O5, O6), and how a running DEC reads an escape pair
(O30). -/

namespace Sys2Proof.Machine

/-! ## Stuffed sequences -/

/-- Settles O5: each logical byte comes back from its own raw bytes. -/
theorem stuffingRoundTrips : Obligations.StuffingRoundTrips := unstuffN_stuffSeq

theorem stuffSeq_eq_flatMap (s : List Byte) : stuffSeq s = s.flatMap stuff := by
  induction s with
  | nil => rfl
  | cons b s ih => simp [ih]

/-- The second byte of an escape pair is not reserved (41_byte_codec.md R121). -/
theorem isReserved_flip (b : Byte) (h : isReserved b = true) : isReserved (b ^^^ Config.escapeFlip) = false := by
  revert b; decide

/-- The only reserved value that `StuffSeq` sends is the escape marker (41_byte_codec.md R122). -/
theorem eq_escapeMarker_or_not_reserved_of_mem_stuffSeq {r : Byte} {s : List Byte} (hr : r ∈ stuffSeq s) :
    r = Config.escapeMarker ∨ isReserved r = false := by
  rw [stuffSeq_eq_flatMap, List.mem_flatMap] at hr
  obtain ⟨b, -, hrb⟩ := hr
  rcases stuff_cases b with ⟨hb, hs⟩ | ⟨hb, hs⟩ <;> rw [hs] at hrb
  · rw [List.mem_cons, List.mem_singleton] at hrb
    rcases hrb with rfl | rfl
    · exact .inl rfl
    · exact .inr (isReserved_flip b hb)
  · rw [List.mem_singleton.1 hrb]
    exact .inr hb

/-- No delimiter and neither of the two flow-control values stands in a stuffed sequence (41_byte_codec.md R128). -/
theorem ne_of_mem_stuffSeq {r : Byte} {s : List Byte} (hr : r ∈ stuffSeq s) : r ≠ 0x7E#8 ∧ r ≠ 0x11#8 ∧ r ≠ 0x13#8 := by
  rcases eq_escapeMarker_or_not_reserved_of_mem_stuffSeq hr with rfl | hres
  · decide
  · simp only [isReserved, Bool.or_eq_false_iff, beq_eq_false_iff_ne] at hres
    obtain ⟨⟨⟨hdelim, -⟩, h11⟩, h13⟩ := hres
    exact ⟨hdelim, h11, h13⟩

/-- An escape marker in a stuffed sequence is the first byte of a pair: the second byte of a pair and a byte that stands for
itself are not reserved (41_byte_codec.md R128). -/
theorem escapeMarker_in_stuffSeq {s xs ys : List Byte} (h : stuffSeq s = xs ++ Config.escapeMarker :: ys) :
    ∃ r zs v, ys = r :: zs ∧ unEsc r = some v := by
  induction s generalizing xs with
  | nil => simp at h
  | cons b s ih =>
    rcases stuff_cases b with ⟨hb, hs⟩ | ⟨hb, hs⟩ <;> rw [stuffSeq_cons, hs] at h
    · match xs, h with
      | [], h => exact ⟨_, _, b, (List.cons.inj h).2.symm, unEsc_flip b hb⟩
      | [_], h => exact absurd (List.cons.inj (List.cons.inj h).2).1 (escapeMarker_reserved _ (isReserved_flip b hb))
      | _ :: _ :: xs, h => exact ih (List.cons.inj (List.cons.inj h).2).2
    · match xs, h with
      | [], h => exact absurd (List.cons.inj h).1 (escapeMarker_reserved b hb)
      | _ :: xs, h => exact ih (List.cons.inj h).2

/-- Settles O6: between the delimiters of a frame stands the stuffed sequence of its body and checksum. -/
theorem stuffedBytesAvoidReservedValues : Obligations.StuffedBytesAvoidReservedValues :=
  ⟨fun _ _ hr => ne_of_mem_stuffSeq hr, fun _ _ _ h => escapeMarker_in_stuffSeq h,
    fun body => ⟨stuffSeq (body ++ [cks body]), rfl, fun _ hr => (ne_of_mem_stuffSeq hr).1⟩⟩

/-! ## Escape pairs in a running DEC -/

theorem Fsm.isDec_of_isBody {f : Fsm} (h : f.isBody = true) : f.isDec = true := by
  cases f <;> simp [Fsm.isBody, Fsm.isDec] at h ⊢

/-- A running DEC takes the byte that is offered (20_memory.md R64). -/
theorem step_offersByte {s : State} {r : Byte} {rs : List Byte} {rest : List Input} (hs : s.fsm.isDec = true)
    (h : OffersByte s r rs rest) : step s = .next (decByte r (took rs rest s)) := by
  obtain ⟨p, hp, herr, hvalid, hstream⟩ := h
  have hoffer : rxOffer p { s with inputs := rest } = some (r, rs) := by simp [rxOffer, hvalid, hstream]
  rw [step_ports hp, blockStep_of_dec p { s with inputs := rest } hp.2 hs]
  simp [decStep, herr, hoffer, took]

theorem decByte_of_isBody (r : Byte) {s : State} (hs : s.fsm.isBody = true) : decByte r s = unstuffStep r s := by
  rcases decByte_cases r s (Fsm.isDec_of_isBody hs) with ⟨hsof, -⟩ | ⟨-, hbody⟩ | ⟨heof, -⟩
  · rw [hsof] at hs; cases hs
  · exact hbody
  · rw [heof] at hs; cases hs

/-- In a body state the byte that is offered is unstuffed (44_frame_decoder.md R193). -/
theorem step_body {s : State} {r : Byte} {rs : List Byte} {rest : List Input} (hs : s.fsm.isBody = true)
    (h : OffersByte s r rs rest) : step s = .next (unstuffStep r (took rs rest s)) :=
  (step_offersByte (Fsm.isDec_of_isBody hs) h).trans (congrArg _ (decByte_of_isBody r hs))

/-- The first byte of a pair (41_byte_codec.md R123). -/
theorem unstuffStep_escapeMarker {s : State} (hesc : s.esc = false) :
    unstuffStep Config.escapeMarker s = { s with esc := true } := by
  simp [unstuffStep, hesc]

/-- The second byte of a pair that the table does not know (41_byte_codec.md R126). -/
theorem unstuffStep_of_unEsc_none {s : State} {r : Byte} (hesc : s.esc = true) (hr : unEsc r = none) :
    unstuffStep r s = raiseDec .stuffing r { s with esc := false } := by
  simp [unstuffStep, hesc, hr]

/-- Settles O30: both bytes reach `unstuffStep`, and `raiseDec` ends the DEC on the second. -/
theorem escapePairsAreReadInTwoSteps : Obligations.EscapePairsAreReadInTwoSteps := by
  intro s r rs rest hs hoffer
  rw [step_body hs hoffer]
  refine ⟨fun hesc hr => ?_, fun hesc h5E h31 h33 h5D => ?_⟩
  · subst hr
    exact congrArg Host.Outcome.next (unstuffStep_escapeMarker (s := took rs rest s) hesc)
  · have hnone : unEsc r = none := by simp [unEsc, h5E, h31, h33, h5D]
    have hbad := unstuffStep_of_unEsc_none (s := took rs rest s) hesc hnone
    exact ⟨_, congrArg Host.Outcome.next hbad, rfl, rfl, endsInDecError_raiseDec .stuffing r { took rs rest s with esc := false }⟩

end Sys2Proof.Machine
end

section
/-! The family 42_checksum.md: the byte sum as a natural number, and the laws of the checksum (O8). -/

namespace Sys2Proof.Machine

theorem toNat_byteSum (s : List Byte) : (byteSum s).toNat = (s.map BitVec.toNat).sum % 256 := by
  induction s with
  | nil => rfl
  | cons b s ih => simp [BitVec.toNat_add, ih]

theorem byteSum_replicate_zero (n : Nat) : byteSum (List.replicate n 0x00#8) = 0#8 := by
  induction n with
  | zero => rfl
  | succ n ih => simp [List.replicate_succ, ih]

theorem byteSum_append_comm (s t : List Byte) : byteSum (s ++ t) = byteSum (t ++ s) := by
  rw [byteSum_append, byteSum_append, BitVec.add_comm]

/-- The complement takes the sum modulo 256 from 255 (42_checksum.md R140). -/
theorem toNat_cks (s : List Byte) : (cks s).toNat = 255 - (s.map BitVec.toNat).sum % 256 := by
  rw [cks, BitVec.toNat_not, toNat_byteSum]

/-- A receiver may check that the covered bytes and their checksum sum to 0xFF (42_checksum.md R147). -/
theorem sum_add_toNat_cks (s : List Byte) : ((s.map BitVec.toNat).sum + (cks s).toNat) % 256 = 255 := by
  rw [toNat_cks]; omega

theorem cks_replicate_zero (n : Nat) : cks (List.replicate n 0x00#8) = 0xFF#8 := by
  rw [cks, byteSum_replicate_zero]; rfl

/-- Settles O8: the checksum is 255 less the byte sum, which zeros leave at zero and which does not depend on the order. -/
theorem checksumComplementsTheSum : Obligations.ChecksumComplementsTheSum :=
  ⟨sum_add_toNat_cks, cks_replicate_zero, fun s t => congrArg (~~~ ·) (byteSum_append_comm s t)⟩

end Sys2Proof.Machine
end

section
/-! The family 43_frame_encoder.md: NOP and the starts of the sending operations (O11, O12, O14, O15), that they do not look at the
decoder's mode (O22), a whole ENC against a willing transport (O38), and a whole DEC of a correct response frame (O39). -/

namespace Sys2Proof.Machine

/-! ## The starts -/

/-- STATUS after an operation that ends at once without an error (30_encoding.md R95, 60_exceptions.md R294). -/
theorem status_endedOk (x : Byte) : statusFinish (statusStart x) = (x &&& 0x98#8) ||| 0x02#8 := by
  revert x; decide

/-- An operation that finishes right after its start actions (43_frame_encoder.md R160). -/
theorem finish_startActions (i : Instr) (s : State) : finish (startActions (opcode i) s) = endedOk i 0x00#8 s := by
  simp only [finish, startActions_status, status_endedOk]
  rfl

/-- Settles O11: the start actions and `finish()`. -/
theorem nopEndsAtOnceWithoutError : Obligations.NopEndsAtOnceWithoutError := fun s hs =>
  (accept_of_accepting _ (fun u => .next (finish u)) s hs).trans (congrArg _ (finish_startActions .nop s))

/-- A block that is read whole holds what each of its addresses holds. -/
theorem Memory.getElem?_of_readBlock {m : Memory} {a n : Nat} {p : List Byte} (h : m.readBlock a n = some p) {i : Nat}
    (hi : i < n) : p[i]? = m.read (a + i) := by
  induction n generalizing a p i with
  | zero => omega
  | succ n ih =>
    simp only [Memory.readBlock] at h
    split at h
    · cases h
    next b hb =>
      split at h
      · cases h
      next bs hbs =>
        cases h
        cases i with
        | zero => exact hb.symm
        | succ i =>
          have hrest := ih hbs (i := i) (by omega)
          rwa [Nat.add_assoc, Nat.add_comm 1 i] at hrest

/-- The length byte of the frame of the TX registers is TX_LEN (43_frame_encoder.md R161). -/
theorem lenByte_txPayload {s : State} {p : List Byte} (hp : s.txPayload = some p) : lenByte p = s.txLen := by
  rw [lenByte, txPayload_length s p hp, BitVec.ofNat_toNat, BitVec.setWidth_eq]

/-- What an accepted ENC with a written payload does (43_frame_encoder.md R161). -/
theorem exec_enc {s : State} {p : List Byte} (hs : s.accepting = true) (hp : s.txPayload = some p) :
    exec .enc s = .next (sending .enc (cks (commandBody s.txAddr s.txCmd p)) (encodeFrame s.txAddr s.txCmd p) s) :=
  (accept_of_accepting _ _ s hs).trans (encBegin_startActions .enc hp)

/-- Settles O12: a written payload is there to be read, and TX_LEN is its length. -/
theorem encQueuesTheHeldFrame : Obligations.EncQueuesTheHeldFrame := by
  intro s hs hw
  obtain ⟨p, hp⟩ := Option.isSome_iff_exists.1 ((txPayload_isSome_iff s).2 hw)
  have hlen := txPayload_length s p hp
  refine ⟨p, hlen, fun i hi => (Memory.getElem?_of_readBlock hp (hlen ▸ hi)).symm, ?_⟩
  rw [exec_enc hs hp, encodeFrame, frameOf, commandBody, lenByte_txPayload hp]
  rfl

/-- Settles O14: the start step is that of the wire command 0x00, which O16 speaks of. -/
theorem encStartLoadsAndQueuesTheFixedFrame : Obligations.EncStartLoadsAndQueuesTheFixedFrame :=
  fun _ hs => accept_loadStart hs

/-- Settles O15: the start step is that of the wire command 0x03, which O16 speaks of. -/
theorem encReadLoadsAndQueuesTheFixedFrame : Obligations.EncReadLoadsAndQueuesTheFixedFrame :=
  fun _ hs => accept_loadRead hs

/-! ## The decoder's mode

Putting another byte in CTRL before a sending operation is the same as putting it there afterwards. -/

/-- CTRL holds the byte `v`. -/
def setCtrl (v : Byte) (s : State) : State := { s with ctrl := v }

/-- What an operation answers, with the next state changed by `f`. -/
def mapNext (f : State → State) : Result → Result
  | .next t => .next (f t)
  | .fault r => .fault r
  | .refused r => .refused r

/-- `ENC_start()` does not look at CTRL (43_frame_encoder.md R166). -/
theorem encBegin_setCtrl (v : Byte) (s : State) : encBegin (setCtrl v s) = mapNext (setCtrl v) (encBegin s) := by
  have hpayload : (setCtrl v s).txPayload = s.txPayload := rfl
  unfold encBegin
  rw [hpayload]
  cases s.txPayload <;> rfl

/-- Acceptance does not look at CTRL either. -/
theorem accept_setCtrl (opc v : Byte) (begin : State → Result)
    (hbegin : ∀ u, begin (setCtrl v u) = mapNext (setCtrl v) (begin u)) (s : State) :
    accept opc begin (setCtrl v s) = mapNext (setCtrl v) (accept opc begin s) := by
  have hacc : (setCtrl v s).accepting = s.accepting := rfl
  cases hs : s.accepting with
  | true =>
    rw [accept_of_accepting _ _ _ (hacc.trans hs), accept_of_accepting _ _ s hs]
    exact hbegin (startActions opc s)
  | false =>
    rw [accept_of_not_accepting _ _ _ (hacc.trans hs), accept_of_not_accepting _ _ s hs]
    rfl

theorem exec_setCtrl {i : Instr} (hi : i ∈ [Instr.enc, Instr.encStart, Instr.encRead]) (v : Byte) (s : State) :
    exec i (setCtrl v s) = mapNext (setCtrl v) (exec i s) := by
  simp only [List.mem_cons, List.not_mem_nil, or_false] at hi
  rcases hi with rfl | rfl | rfl
  · exact accept_setCtrl _ v encBegin (encBegin_setCtrl v) s
  · exact accept_setCtrl _ v (fun u => encBegin (loadStart u)) (fun u => encBegin_setCtrl v (loadStart u)) s
  · exact accept_setCtrl _ v (fun u => encBegin (loadRead u)) (fun u => encBegin_setCtrl v (loadRead u)) s

theorem encEmitStep_setCtrl (v : Byte) (p : Ports) (s : State) :
    encEmitStep p (setCtrl v s) = setCtrl v (encEmitStep p s) := by
  have htxq : (setCtrl v s).txq = s.txq := rfl
  unfold encEmitStep
  rw [htxq]
  split
  · rfl
  · split
    · split <;> rfl
    · rfl

theorem blockStep_setCtrl_of_encEmit (v : Byte) (p : Ports) {s : State} (hs : s.fsm = .encEmit) :
    blockStep p (setCtrl v s) = setCtrl v (blockStep p s) := by
  cases hr : s.rst with
  | true => rw [blockStep_of_rst p s hr, blockStep_of_rst p (setCtrl v s) hr]
  | false =>
    rw [blockStep_of_encEmit p s hr hs, blockStep_of_encEmit p (setCtrl v s) hr hs, encEmitStep_setCtrl]

/-- Settles O22: `setCtrl` commutes with each start and with the ENC_EMIT step. -/
theorem encoderIgnoresTheDecoderMode : Obligations.EncoderIgnoresTheDecoderMode := by
  refine ⟨fun i hi s v => ?_, fun s v p hs => blockStep_setCtrl_of_encEmit v p hs⟩
  have hexec := exec_setCtrl hi v s
  cases he : exec i s <;> rw [he] at hexec <;> exact hexec

/-! ## A whole ENC -/

/-- The state of a sending block that has put all of `q` on the TX stream. -/
def sent (q : List Byte) (rest : List Input) (s : State) : State :=
  { s with
    status := (s.status &&& 0xFC#8) ||| 0x02#8, txStream := s.txStream ++ q, fsm := .idle, txq := [], inputs := rest }

/-- A willing transport takes the whole of h.txq, one byte a step, and the last byte ends the operation
(43_frame_encoder.md R162, 70_reset_and_hazards.md R343). -/
theorem runSteps_encEmit {q : List Byte} {s : State} {rest : List Input} (hq : q ≠ []) (hs : s.fsm = .encEmit)
    (hr : s.rst = false) (htxq : s.txq = q) (hin : s.inputs = portSteps q.length takePorts ++ rest) :
    runSteps q.length s = .next (sent q rest s) := by
  induction q generalizing s with
  | nil => exact absurd rfl hq
  | cons b q ih =>
    obtain ⟨-, hmore, hlast, -⟩ := encEmitsOneByteAStep s takePorts _ b q hs htxq ⟨hin, hr⟩
    by_cases hnil : q = []
    · have hstep := hlast rfl rfl hnil
      subst hnil
      exact runSteps_succ hstep 0
    · rw [List.length_cons, runSteps_succ (hmore rfl rfl hnil), ih hnil]
      · simp [sent]
      · exact hs
      · exact hr
      · rfl
      · rfl

/-- A step whose input is an accepted write of ENC to OP, of whatever high nibble (30_encoding.md R90). -/
theorem step_enc {s : State} {p : List Byte} {v : Byte} {rest : List Input} (hs : s.accepting = true)
    (hp : s.txPayload = some p) (hv : v &&& 0x0F#8 = 0x01#8) (h : HostActs s (.write opAddr v) rest) :
    step s = .next (sending .enc (cks (commandBody s.txAddr s.txCmd p)) (encodeFrame s.txAddr s.txCmd p)
      { s with inputs := rest }) := by
  have hop : decodeOp v = .enc := by rw [← decodeOp_lowNibble, hv]; rfl
  have hwrite : hostAct (.write opAddr v) { s with inputs := rest } = exec .enc { s with inputs := rest } := by
    rw [← hop]; exact hostWrite_op v _
  rw [step_hostAct h, hwrite]
  exact exec_enc hs hp

/-- STATUS after a whole ENC (30_encoding.md R95, 60_exceptions.md R294). -/
theorem status_sent (x : Byte) : (((x &&& 0x98#8) ||| 0x01#8) &&& 0xFC#8) ||| 0x02#8 = (x &&& 0x98#8) ||| 0x02#8 := by
  revert x; decide

/-- Settles O38: the start step queues the frame, and `runSteps_encEmit` sends it. -/
theorem encSendsItsWholeFrame : Obligations.EncSendsItsWholeFrame := by
  intro s p v rest hs hp hv hin
  refine (runSteps_succ (step_enc hs hp hv hin) _).trans
    ((runSteps_encEmit (encodeFrame_ne_nil _ _ _) rfl ?_ rfl rfl).trans ?_)
  · exact ((accepting_iff s).1 hs).1
  · simp only [sent, sending, status_sent]
    rfl

/-! ## A running DEC and the raw bytes that it reads

A DEC does not look beyond the byte that it is handed, so a run is what its raw bytes do one after the other. `Reads` names
that, and `Reads.runSteps` ties it to the steps of the machine. -/

@[simp] theorem took_fsm (rs : List Byte) (rest : List Input) (s : State) : (took rs rest s).fsm = s.fsm := rfl
@[simp] theorem took_esc (rs : List Byte) (rest : List Input) (s : State) : (took rs rest s).esc = s.esc := rfl
@[simp] theorem took_strict (rs : List Byte) (rest : List Input) (s : State) : (took rs rest s).strict = s.strict := rfl
@[simp] theorem took_ckraw (rs : List Byte) (rest : List Input) (s : State) : (took rs rest s).ckraw = s.ckraw := rfl
@[simp] theorem took_rxCksumCalc (rs : List Byte) (rest : List Input) (s : State) :
    (took rs rest s).rxCksumCalc = s.rxCksumCalc := rfl

theorem deliver_took (v : Byte) (rs : List Byte) (rest : List Input) (s : State) :
    deliver v (took rs rest s) = took rs rest (deliver v s) := by
  unfold deliver
  rw [took_fsm]
  split <;> rfl

theorem decSofByte_took (r : Byte) (rs : List Byte) (rest : List Input) (s : State) :
    decSofByte r (took rs rest s) = took rs rest (decSofByte r s) := by
  unfold decSofByte
  split <;> rfl

theorem unstuffStep_took (r : Byte) (rs : List Byte) (rest : List Input) (s : State) :
    unstuffStep r (took rs rest s) = took rs rest (unstuffStep r s) := by
  unfold unstuffStep
  rw [took_esc]
  split
  · split
    · exact deliver_took _ rs rest { s with esc := false }
    · rfl
  · split
    · rfl
    · exact deliver_took r rs rest s

theorem decEofByte_took (r : Byte) (rs : List Byte) (rest : List Input) (s : State) :
    decEofByte r (took rs rest s) = took rs rest (decEofByte r s) := by
  unfold decEofByte
  rw [took_strict, took_ckraw, took_rxCksumCalc]
  split
  · rfl
  · split <;> rfl

/-- What a raw byte does in a DEC does not depend on the bytes and inputs that wait behind it. -/
theorem decByte_took (r : Byte) (rs : List Byte) (rest : List Input) (s : State) :
    decByte r (took rs rest s) = took rs rest (decByte r s) := by
  cases hfsm : s.fsm <;>
    simp only [decByte, took_fsm, hfsm, decSofByte_took, unstuffStep_took, decEofByte_took]

theorem deliver_rst (v : Byte) (s : State) : (deliver v s).rst = s.rst := by
  unfold deliver
  split <;> rfl

/-- No raw byte touches the port rst. -/
theorem decByte_rst (r : Byte) {s : State} (hs : s.fsm.isDec = true) : (decByte r s).rst = s.rst := by
  rcases decByte_cases r s hs with ⟨-, hb⟩ | ⟨-, hb⟩ | ⟨-, hb⟩ <;> rw [hb]
  · rcases decSofByte_cases r s with hc | hc <;> exact (congrArg State.rst hc).trans rfl
  · rcases unstuffStep_cases r s with ⟨v, hc⟩ | hc | hc
    · exact (congrArg State.rst hc).trans (deliver_rst v { s with esc := false })
    all_goals exact (congrArg State.rst hc).trans rfl
  · rcases decEofByte_cases r s with ⟨e, info, hc⟩ | hc <;> exact (congrArg State.rst hc).trans rfl

/-- A step that offers a raw byte to a DEC, with the bytes and inputs behind it (20_memory.md R64). -/
theorem step_took_offer (r : Byte) (rs : List Byte) (rest : List Input) {s : State} (hs : s.fsm.isDec = true)
    (hr : s.rst = false) :
    step (took (r :: rs) (.ports offerPorts :: rest) s) = .next (took rs rest (decByte r s)) := by
  rw [← decByte_took]
  exact step_offersByte (s := took (r :: rs) (.ports offerPorts :: rest) s) hs ⟨offerPorts, ⟨rfl, hr⟩, rfl, rfl, rfl⟩

/-- A DEC in `s` reads the raw bytes of the list, and is then in `t`. -/
inductive Reads : List Byte → State → State → Prop
  | nil (s : State) : Reads [] s s
  | cons {r : Byte} {raws : List Byte} {s t : State} (hs : s.fsm.isDec = true) (h : Reads raws (decByte r s) t) :
      Reads (r :: raws) s t

theorem Reads.append {raws raws' : List Byte} {s t u : State} (h : Reads raws s t) (h' : Reads raws' t u) :
    Reads (raws ++ raws') s u := by
  induction h with
  | nil => exact h'
  | cons hs _ ih => exact .cons hs (ih h')

/-- A transport that offers the raw bytes has the block read them, one a step (20_memory.md R64, 44_frame_decoder.md R190). -/
theorem Reads.runSteps {raws : List Byte} {s t : State} (h : Reads raws s t) (hr : s.rst = false) (rs : List Byte)
    (rest : List Input) :
    runSteps raws.length (took (raws ++ rs) (portSteps raws.length offerPorts ++ rest) s) = .next (took rs rest t) := by
  induction h with
  | nil => rfl
  | cons hs _ ih => exact (runSteps_succ (step_took_offer _ _ _ hs hr) _).trans (ih ((decByte_rst _ hs).trans hr))

/-! ## The logical bytes of a frame -/

/-- A raw byte that stands for the logical byte `v` delivers it (41_byte_codec.md R123). -/
theorem unstuffStep_of_delivers {s : State} {r v : Byte} (h : Delivers s r v) :
    unstuffStep r s = deliver v { s with esc := false } := by
  rcases h with ⟨hesc, hr, rfl⟩ | ⟨hesc, hv⟩
  · have hs : { s with esc := false } = s := by rw [← hesc]
    have hne : v ≠ Config.escapeMarker := hr
    simp [unstuffStep, hesc, hne, hs]
  · simp [unstuffStep, hesc, hv]

/-- The raw bytes of a logical byte deliver it (41_byte_codec.md R122, R123). -/
theorem reads_stuff (b : Byte) {s : State} (hs : s.fsm.isBody = true) (hesc : s.esc = false) :
    Reads (stuff b) s (deliver b s) := by
  have hclear : { s with esc := false } = s := by rw [← hesc]
  have hdec := Fsm.isDec_of_isBody hs
  rcases stuff_cases b with ⟨hb, heq⟩ | ⟨hb, heq⟩ <;> rw [heq]
  · have hsecond : decByte (b ^^^ Config.escapeFlip) { s with esc := true } = deliver b s := by
      rw [decByte_of_isBody _ (s := { s with esc := true }) hs,
        unstuffStep_of_delivers (s := { s with esc := true }) (.inr ⟨rfl, unEsc_flip b hb⟩)]
      exact congrArg (deliver b) hclear
    refine .cons hdec ?_
    rw [decByte_of_isBody _ hs, unstuffStep_escapeMarker hesc]
    refine .cons hdec ?_
    rw [hsecond]
    exact .nil _
  · refine .cons hdec ?_
    rw [decByte_of_isBody _ hs, unstuffStep_of_delivers (.inl ⟨hesc, escapeMarker_reserved b hb, rfl⟩), hclear]
    exact .nil _

/-! ## The payload of a frame -/

/-- Bytes written in address order from `a` on. -/
def Memory.writeBlock : Memory → Nat → List Byte → Memory
  | m, _, [] => m
  | m, a, b :: p => (m.write a b).writeBlock (a + 1) p

theorem Memory.read_writeBlock_outside (m : Memory) (a : Nat) (p : List Byte) {x : Nat} (hx : x < a ∨ a + p.length ≤ x) :
    (m.writeBlock a p).read x = m.read x := by
  induction p generalizing m a with
  | nil => rfl
  | cons b p ih =>
    simp only [List.length_cons] at hx
    rw [Memory.writeBlock, ih _ _ (by omega), Memory.read_write_other _ _ _ _ (by omega)]

theorem Memory.read_writeBlock_inside (m : Memory) (a : Nat) {p : List Byte} {i : Nat} (hi : i < p.length) :
    (m.writeBlock a p).read (a + i) = p[i]? := by
  induction p generalizing m a i with
  | nil => cases hi
  | cons b p ih =>
    rw [Memory.writeBlock]
    cases i with
    | zero => rw [Memory.read_writeBlock_outside _ _ _ (by omega)]; exact Memory.read_write_same m a b
    | succ i =>
      have hrest := ih (m.write a b) (a + 1) (Nat.lt_of_succ_lt_succ hi)
      rwa [Nat.add_assoc, Nat.add_comm 1 i] at hrest

/-- What the payload bytes of a frame leave: the entries from h.idx on hold them, h.sum counts them, and DEC waits for the checksum
(44_frame_decoder.md R198). -/
def payloadRead (p : List Byte) (s : State) : State :=
  { s with
    mem := s.mem.writeBlock (rxpBase + s.idx.toNat) p, sum := s.sum + byteSum p, idx := s.rxLen, fsm := .decCks }

/-- `n` payload bytes are still to come (44_frame_decoder.md R197, R198). -/
structure AwaitsPayload (n : Nat) (s : State) : Prop where
  fsm : s.fsm = if n = 0 then .decCks else .decData
  esc : s.esc = false
  idx : s.idx.toNat + n = s.rxLen.toNat

/-- With no payload byte to come nothing is left to be read. -/
theorem AwaitsPayload.payloadRead_nil {s : State} (h : AwaitsPayload 0 s) : payloadRead [] s = s := by
  have hsame (i : Byte) (f : Fsm) (hi : i = s.idx) (hf : f = s.fsm) : { s with idx := i, fsm := f } = s := by rw [hi, hf]
  have hidx : s.rxLen = s.idx := BitVec.eq_of_toNat_eq h.idx.symm
  simpa [payloadRead, Memory.writeBlock] using hsame _ _ hidx h.fsm.symm

theorem AwaitsPayload.idx_succ {n : Nat} {s : State} (h : AwaitsPayload (n + 1) s) :
    (s.idx + 1#8).toNat = s.idx.toNat + 1 := by
  have hidx := h.idx
  have hlen := s.rxLen.isLt
  have hone : (1#8).toNat = 1 := rfl
  rw [BitVec.toNat_add, hone]; omega

theorem AwaitsPayload.after_deliverData {n : Nat} {s : State} (h : AwaitsPayload (n + 1) s) (b : Byte) :
    AwaitsPayload n (deliverData b s) := by
  have hsucc := h.idx_succ
  have hidx := h.idx
  have hlast : s.idx + 1#8 = s.rxLen ↔ n = 0 := by
    rw [← BitVec.toNat_inj, hsucc]; omega
  refine ⟨?_, h.esc, ?_⟩
  · simp only [deliverData, hlast]
  · have hnext : (deliverData b s).idx.toNat = s.idx.toNat + 1 := hsucc
    have hlen : (deliverData b s).rxLen = s.rxLen := rfl
    rw [hnext, hlen]; omega

/-- The first payload byte, and then the others. -/
theorem AwaitsPayload.payloadRead_cons {n : Nat} {s : State} (h : AwaitsPayload (n + 1) s) (b : Byte) (p : List Byte) :
    payloadRead p (deliverData b s) = payloadRead (b :: p) s := by
  have hnext : (deliverData b s).idx.toNat = s.idx.toNat + 1 := h.idx_succ
  simp only [payloadRead, hnext, Memory.writeBlock, byteSum_cons]
  simp [deliverData, BitVec.add_assoc, Nat.add_assoc]

/-- The raw bytes of a payload fill RXP (44_frame_decoder.md R198). -/
theorem reads_payload (p : List Byte) {s : State} (h : AwaitsPayload p.length s) :
    Reads (stuffSeq p) s (payloadRead p s) := by
  induction p generalizing s with
  | nil => rw [h.payloadRead_nil]; exact .nil s
  | cons b p ih =>
    have hfsm : s.fsm = .decData := h.fsm
    have hfirst := reads_stuff b (by rw [hfsm]; rfl) h.esc
    have hdeliver : deliver b s = deliverData b s := by simp only [deliver, hfsm]
    rw [hdeliver] at hfirst
    rw [← h.payloadRead_cons]
    exact hfirst.append (ih (h.after_deliverData b))

/-- The length byte of a payload announces it (44_frame_decoder.md R197). -/
theorem awaitsPayload_deliverLen {p : List Byte} (hp : p.length ≤ 255) {s : State} (hesc : s.esc = false) :
    AwaitsPayload p.length (deliverLen (lenByte p) s) := by
  have hlen := lenByte_toNat p hp
  have hzero : lenByte p = 0#8 ↔ p.length = 0 := by rw [← BitVec.toNat_inj, hlen]; rfl
  refine ⟨?_, hesc, ?_⟩
  · simp only [deliverLen, hzero]
  · simp [deliverLen, hlen]

/-! ## A correct response frame -/

/-- A DEC that has read the leading delimiter (44_frame_decoder.md R192). -/
def opened (s : State) : State := { s with sum := 0#8, fsm := .decAddr }

/-- The header of a response frame delivered, field by field (44_frame_decoder.md R194 to R197). -/
def headerRead (a c st n : Byte) (s : State) : State := deliverLen n (deliverState st (deliverCmd c (deliverAddr a s)))

/-- All the logical bytes of a response frame delivered, with the trailing delimiter still to come (43_frame_encoder.md R167). -/
def fieldsRead (a c st : Byte) (p : List Byte) (s : State) : State :=
  deliverCks (cks (responseBody a c st p)) (payloadRead p (headerRead a c st (lenByte p) s))

theorem reads_header (a c st n : Byte) {s : State} (hs : s.fsm = .decAddr) (hesc : s.esc = false) :
    Reads (stuffSeq [a, c, st, n]) s (headerRead a c st n s) := by
  have haddr : Reads (stuff a) s (deliverAddr a s) := by
    have h := reads_stuff a (by rw [hs]; rfl) hesc
    rwa [deliver, hs] at h
  have hcmd : Reads (stuff c) (deliverAddr a s) _ := reads_stuff c rfl hesc
  have hstate : Reads (stuff st) (deliverCmd c (deliverAddr a s)) _ := reads_stuff st rfl hesc
  have hlen : Reads (stuff n) (deliverState st (deliverCmd c (deliverAddr a s))) _ := reads_stuff n rfl hesc
  exact haddr.append (hcmd.append (hstate.append (hlen.append (.nil _))))

/-- The raw bytes between the delimiters of a response frame deliver its fields (43_frame_encoder.md R167). -/
theorem reads_fields (a c st : Byte) {p : List Byte} (hp : p.length ≤ 255) {s : State} (hs : s.fsm = .decAddr)
    (hesc : s.esc = false) :
    Reads (stuffSeq (responseBody a c st p ++ [cks (responseBody a c st p)])) s (fieldsRead a c st p s) := by
  have hheader := reads_header a c st (lenByte p) hs hesc
  have hpayload : Reads (stuffSeq p) (headerRead a c st (lenByte p) s) _ :=
    reads_payload p (awaitsPayload_deliverLen hp hesc)
  have hcks : Reads (stuff (cks (responseBody a c st p))) (payloadRead p (headerRead a c st (lenByte p) s))
      (fieldsRead a c st p s) := reads_stuff _ rfl hesc
  simpa [responseBody, stuffSeq_append] using hheader.append (hpayload.append hcks)

/-- The checksum that DEC computes is the frame's (44_frame_decoder.md R199). -/
theorem fieldsRead_rxCksumCalc (a c st : Byte) (p : List Byte) (s : State) :
    (fieldsRead a c st p (opened s)).rxCksumCalc = cks (responseBody a c st p) := by
  have hsum : (fieldsRead a c st p (opened s)).sum = byteSum (responseBody a c st p) := by
    simp [fieldsRead, deliverCks, payloadRead, headerRead, deliverLen, deliverState, deliverCmd, deliverAddr, opened,
      responseBody, BitVec.add_assoc]
  exact congrArg (~~~ ·) hsum

/-- A delimiter after a checksum that is right ends the DEC with a packet, in both modes (44_frame_decoder.md R200). -/
theorem decEofByte_of_cksum {s : State} (h : s.ckraw = s.rxCksumCalc) : decEofByte Config.delimiter s = packetHeld s := by
  simp [decEofByte, h, packetHeld]

/-- A DEC reads a correct response frame to its end (43_frame_encoder.md R167). -/
theorem reads_responseFrame (a c st : Byte) {p : List Byte} (hp : p.length ≤ 255) {s : State} (hs : s.fsm = .decSof)
    (hesc : s.esc = false) :
    Reads (responseFrame a c st p) s (packetHeld (fieldsRead a c st p (opened s))) := by
  have hopen : decByte Config.delimiter s = opened s := by simp [decByte, hs, decSofByte, opened]
  have hclose : decByte Config.delimiter (fieldsRead a c st p (opened s)) =
      packetHeld (fieldsRead a c st p (opened s)) :=
    decEofByte_of_cksum (fieldsRead_rxCksumCalc a c st p s).symm
  refine .cons (by rw [hs]; rfl) ?_
  rw [hopen]
  refine (reads_fields a c st hp (s := opened s) rfl hesc).append (.cons rfl ?_)
  rw [hclose]
  exact .nil _

/-- STATUS after a DEC that succeeds (44_frame_decoder.md R200). -/
theorem status_packetHeld (x : Byte) (empty : Bool) :
    statusFinish (statusPacket (setBit (statusPacket (statusStart x) false false) busyBit true) true empty) =
      (x &&& 0x80#8) ||| (if empty then 0x1A#8 else 0x0A#8) := by
  revert x empty; decide

/-- The state of an accepted DEC that has read a correct response frame to its end. -/
def responseHeld (a c st : Byte) (p : List Byte) (s : State) : State :=
  packetHeld (fieldsRead a c st p (opened (decBegin (startActions (opcode .dec) s))))

/-- An accepted DEC reads the response frame that is first in the stream, one raw byte a step. -/
theorem runSteps_dec_responseFrame (a c st : Byte) {p : List Byte} {s : State} {rs : List Byte} {rest : List Input}
    (hp : p.length ≤ 255) (hs : s.accepting = true) (hstream : s.rxStream = responseFrame a c st p ++ rs)
    (hin : s.inputs =
      .host (.write 0x001#10 0x02#8) :: (portSteps (responseFrame a c st p).length offerPorts ++ rest)) :
    runSteps ((responseFrame a c st p).length + 1) s = .next (took rs rest (responseHeld a c st p s)) := by
  have hrst := ((accepting_iff s).1 hs).1
  have hstart : step s = .next (took s.rxStream (portSteps (responseFrame a c st p).length offerPorts ++ rest)
      (decBegin (startActions (opcode .dec) s))) :=
    (step_hostAct hin).trans (accept_of_accepting _ (fun u => .next (decBegin u)) _ hs)
  rw [runSteps_succ hstart, hstream]
  exact (reads_responseFrame a c st hp (s := decBegin (startActions (opcode .dec) s)) rfl rfl).runSteps hrst rs rest

/-- Settles O39: `responseHeld` is the state after the run, and its fields are those of the frame. -/
theorem correctResponseFramesAreDecoded : Obligations.CorrectResponseFramesAreDecoded := by
  intro a c st p s rs rest hp hs hstream hin
  refine ⟨_, runSteps_dec_responseFrame a c st hp hs hstream hin, rfl, rfl, rfl, fun i hi => ?_, fun i hi => ?_,
    fieldsRead_rxCksumCalc a c st p _, rfl, rfl, ?_, rfl, rfl, rfl, rfl, rfl, rfl, rfl⟩
  · exact Memory.read_writeBlock_inside s.mem rxpBase hi
  · exact Memory.read_writeBlock_outside s.mem rxpBase p (.inr (Nat.add_le_add_left hi rxpBase))
  · refine (status_packetHeld s.status (lenByte p == 0#8)).trans ?_
    have hzero : lenByte p = 0#8 ↔ p = [] := by
      rw [← BitVec.toNat_inj, lenByte_toNat p hp]; exact List.length_eq_zero_iff
    simp only [beq_iff_eq, hzero]

end Sys2Proof.Machine
end

section
/-! The family 44_frame_decoder.md: the start of DEC (O17), what a raw byte does in each of its states (O29, O31 to O35), and that
the byte-by-byte DEC gives what `DecodeFrame` gives (O40). -/

namespace Sys2Proof.Machine

/-! ## The start of DEC -/

/-- STATUS after the start of DEC (30_encoding.md R95, 44_frame_decoder.md R191). -/
theorem status_decBegin (x : Byte) :
    setBit (statusPacket (statusStart x) false false) busyBit true = (x &&& 0x80#8) ||| 0x01#8 := by
  revert x; decide

/-- What an accepted DEC does (44_frame_decoder.md R190). -/
theorem exec_dec {s : State} (hs : s.accepting = true) :
    exec .dec s = .next (decBegin (startActions (opcode .dec) s)) :=
  accept_of_accepting _ (fun u => .next (decBegin u)) s hs

/-- Settles O17: the start actions and `DEC_start()`; a write of CTRL meanwhile is one that a busy block ignores. -/
theorem decStartsWaitingForTheDelimiter : Obligations.DecStartsWaitingForTheDelimiter := by
  refine ⟨fun s hs => ?_, fun s v rest hb h => (busyBlockIgnoresWrites s 0x000#10 rest hb).1 v h⟩
  rw [exec_dec hs]
  simp only [decBegin, startActions_status, status_decBegin]
  rfl

/-! ## The two delimiters -/

theorem decByte_of_decSof (r : Byte) {s : State} (hs : s.fsm = .decSof) : decByte r s = decSofByte r s := by
  simp only [decByte, hs]

theorem decByte_of_decEof (r : Byte) {s : State} (hs : s.fsm = .decEof) : decByte r s = decEofByte r s := by
  simp only [decByte, hs]

/-- The leading delimiter opens the frame (44_frame_decoder.md R192). -/
theorem decSofByte_delimiter (s : State) : decSofByte Config.delimiter s = opened s := if_pos rfl

/-- No other byte does (44_frame_decoder.md R192). -/
theorem decSofByte_of_ne {r : Byte} (hr : r ≠ Config.delimiter) (s : State) :
    decSofByte r s = raiseDec (.framing false) r s := if_neg hr

/-- A byte other than the delimiter is found first, whatever the checksum (44_frame_decoder.md R200). -/
theorem decEofByte_of_ne {r : Byte} (hr : r ≠ Config.delimiter) (s : State) :
    decEofByte r s = raiseDec (.framing true) r s := if_pos hr

/-- A wrong checksum in STRICT mode (44_frame_decoder.md R200). -/
theorem decEofByte_of_cksum_ne {s : State} (hstrict : s.strict = true) (h : s.ckraw ≠ s.rxCksumCalc) :
    decEofByte Config.delimiter s = raiseDec .checksum s.ckraw s := by
  simp [decEofByte, hstrict, h]

/-- A frame that ends with its delimiter and passes the check of its mode is handed over (44_frame_decoder.md R200). -/
theorem decEofByte_of_passed {s : State} (h : s.strict = true → s.ckraw = s.rxCksumCalc) :
    decEofByte Config.delimiter s = packetHeld s := by
  cases hstrict : s.strict with
  | true => exact decEofByte_of_cksum (h hstrict)
  | false => simp [decEofByte, hstrict, packetHeld]

/-- Settles O29: the byte reaches `decSofByte`. -/
theorem leadingDelimiterOpensTheFrame : Obligations.LeadingDelimiterOpensTheFrame := by
  intro s r rs rest hs hoffer
  have hstep := step_offersByte (by rw [hs]; rfl) hoffer
  rw [decByte_of_decSof r (s := took rs rest s) hs] at hstep
  rw [hstep]
  refine ⟨fun hr => ?_, fun hr => ?_⟩
  · rw [hr]
    exact congrArg Host.Outcome.next (decSofByte_delimiter (took rs rest s))
  · rw [decSofByte_of_ne hr]
    exact ⟨_, rfl, rfl, rfl, endsInDecError_raiseDec (.framing false) r (took rs rest s)⟩

/-- STATUS after the success of a DEC (44_frame_decoder.md R200, 60_exceptions.md R294). -/
theorem statusFinish_statusPacket (x : Byte) (empty : Bool) :
    statusFinish (statusPacket x true empty) = (x &&& 0xE4#8) ||| (if empty then 0x1A#8 else 0x0A#8) := by
  revert x empty; decide

/-- Settles O35: the byte reaches `decEofByte`, whose three ends are `decEofByte_of_ne`, `decEofByte_of_cksum_ne` and
`decEofByte_of_passed`. -/
theorem trailingDelimiterEndsTheFrame : Obligations.TrailingDelimiterEndsTheFrame := by
  intro s r rs rest hs hoffer
  have hstep := step_offersByte (by rw [hs]; rfl) hoffer
  rw [decByte_of_decEof r (s := took rs rest s) hs] at hstep
  rw [hstep]
  refine ⟨fun hr => ?_, fun hr hstrict hne => ?_, fun hr hpassed => ?_⟩
  · rw [decEofByte_of_ne hr]
    exact ⟨_, rfl, rfl, rfl, endsInDecError_raiseDec (.framing true) r (took rs rest s)⟩
  · have hbad := decEofByte_of_cksum_ne (s := took rs rest s) hstrict hne
    subst hr
    exact ⟨_, congrArg Host.Outcome.next hbad, rfl, rfl, endsInDecError_raiseDec .checksum s.ckraw (took rs rest s)⟩
  · have hgood := decEofByte_of_passed (s := took rs rest s) hpassed
    subst hr
    refine congrArg Host.Outcome.next (hgood.trans ?_)
    simp only [packetHeld, finish, statusFinish_statusPacket, beq_iff_eq]
    rfl

/-! ## The body fields -/

/-- In a body state an offered byte that stands for `v` delivers it (44_frame_decoder.md R193). -/
theorem step_delivers {s : State} {r v : Byte} {rs : List Byte} {rest : List Input} (hs : s.fsm.isBody = true)
    (hoffer : OffersByte s r rs rest) (hv : Delivers s r v) :
    step s = .next (took rs rest (deliver v { s with esc := false })) := by
  rw [step_body hs hoffer, unstuffStep_took, unstuffStep_of_delivers hv]

theorem deliver_of_decAddr {s : State} (v : Byte) (hs : s.fsm = .decAddr) : deliver v s = deliverAddr v s := by
  simp only [deliver, hs]

theorem deliver_of_decCmd {s : State} (v : Byte) (hs : s.fsm = .decCmd) : deliver v s = deliverCmd v s := by
  simp only [deliver, hs]

theorem deliver_of_decState {s : State} (v : Byte) (hs : s.fsm = .decState) : deliver v s = deliverState v s := by
  simp only [deliver, hs]

theorem deliver_of_decLen {s : State} (v : Byte) (hs : s.fsm = .decLen) : deliver v s = deliverLen v s := by
  simp only [deliver, hs]

theorem deliver_of_decData {s : State} (v : Byte) (hs : s.fsm = .decData) : deliver v s = deliverData v s := by
  simp only [deliver, hs]

theorem deliver_of_decCks {s : State} (v : Byte) (hs : s.fsm = .decCks) : deliver v s = deliverCks v s := by
  simp only [deliver, hs]

/-- Settles O31: `step_delivers` in each of the three states. -/
theorem headerBytesAreStored : Obligations.HeaderBytesAreStored := by
  intro s r v rs rest hoffer hv
  refine ⟨fun hs => ?_, fun hs => ?_, fun hs => ?_⟩ <;> rw [step_delivers (by rw [hs]; rfl) hoffer hv]
  · rw [deliver_of_decAddr (s := { s with esc := false }) v hs]; rfl
  · rw [deliver_of_decCmd (s := { s with esc := false }) v hs]; rfl
  · rw [deliver_of_decLen (s := { s with esc := false }) v hs]; rfl

/-- Settles O32: the mode picks the stored byte in `deliverState`, and not the summed one. -/
theorem stateByteIsStoredOrAliased : Obligations.StateByteIsStoredOrAliased := by
  intro s r v rs rest hoffer hv hs
  rw [step_delivers (by rw [hs]; rfl) hoffer hv, deliver_of_decState (s := { s with esc := false }) v hs]
  refine ⟨fun hstrict => ?_, fun hstrict => ?_⟩ <;> simp [deliverState, hstrict]

/-- Settles O33: `deliverData` stores at RXP[h.idx]; a raw 0x7E with no escape pending stands for itself. -/
theorem payloadBytesFillTheBuffer : Obligations.PayloadBytesFillTheBuffer := by
  refine ⟨fun s r v rs rest hoffer hv hs => ?_, fun s hesc => .inl ⟨hesc, by decide, rfl⟩⟩
  rw [step_delivers (by rw [hs]; rfl) hoffer hv, deliver_of_decData (s := { s with esc := false }) v hs]
  exact ⟨_, rfl, rfl, Memory.read_write_same _ _ _, fun a ha => Memory.read_write_other _ _ _ _ ha⟩

/-- Settles O34: the mode picks what RX_CKSUM takes in `deliverCks`, and nothing else. -/
theorem checksumByteIsKeptAndComputed : Obligations.ChecksumByteIsKeptAndComputed := by
  intro s r v rs rest hoffer hv hs
  rw [step_delivers (by rw [hs]; rfl) hoffer hv, deliver_of_decCks (s := { s with esc := false }) v hs]
  refine ⟨fun hstrict => ?_, fun hstrict => ?_⟩ <;> simp [deliverCks, hstrict]

/-! ## A DEC on the front of a raw stream

`Takes` is `Reads` with the bytes that are left and the number of those read, as `unstuff1` and `DecodeFrame` count them. -/

/-- A DEC in `s` reads the first `k` bytes of `raws`, with `rest` left, and is then in `t`. -/
def Takes (raws : List Byte) (s : State) (k : Nat) (rest : List Byte) (t : State) : Prop :=
  ∃ used, raws = used ++ rest ∧ used.length = k ∧ Reads used s t

theorem Takes.zero (raws : List Byte) (s : State) : Takes raws s 0 raws s := ⟨[], rfl, rfl, .nil s⟩

theorem Takes.one (r : Byte) (raws : List Byte) {s : State} (hs : s.fsm.isDec = true) :
    Takes (r :: raws) s 1 raws (decByte r s) := ⟨[r], rfl, rfl, .cons hs (.nil _)⟩

theorem Takes.trans {raws rest rest' : List Byte} {s t u : State} {k k' : Nat} (h : Takes raws s k rest t)
    (h' : Takes rest t k' rest' u) : Takes raws s (k + k') rest' u := by
  obtain ⟨used, rfl, rfl, hr⟩ := h
  obtain ⟨used', rfl, rfl, hr'⟩ := h'
  exact ⟨used ++ used', (List.append_assoc ..).symm, List.length_append, hr.append hr'⟩

/-- After `k` bytes of `raws` the DEC ends with the error `e` and the information byte `info`. -/
def FailsAfter (raws : List Byte) (s : State) (k : Nat) (e : ErrorKind) (info : Byte) : Prop :=
  ∃ rest u, Takes raws s k rest (raiseDec e info u)

/-- The DEC reads all of `raws` and still runs. -/
def StillRuns (raws : List Byte) (s : State) : Prop := ∃ u, Reads raws s u ∧ u.fsm.isDec = true

theorem Takes.failsAfter {raws rest : List Byte} {s t : State} {k k' : Nat} {e : ErrorKind} {info : Byte}
    (h : Takes raws s k rest t) (h' : FailsAfter rest t k' e info) : FailsAfter raws s (k + k') e info := by
  obtain ⟨rest', u, hu⟩ := h'
  exact ⟨rest', u, h.trans hu⟩

theorem Takes.stillRuns {raws rest : List Byte} {s t : State} {k : Nat} (h : Takes raws s k rest t)
    (h' : StillRuns rest t) : StillRuns raws s := by
  obtain ⟨used, rfl, -, hr⟩ := h
  obtain ⟨u, hu, hdec⟩ := h'
  exact ⟨u, hr.append hu, hdec⟩

/-! ## Unstuffing -/

/-- What a DEC in `s` does with `raws` when unstuffing from the front of `raws` answers so; a value `v` leaves it in `f v`. -/
def DecUnstuffs {α : Type} (raws : List Byte) (s : State) (f : α → State) : Unstuffed α → Prop
  | .got v k rest => Takes raws s k rest (f v)
  | .bad r k => FailsAfter raws s k .stuffing r
  | .short => StillRuns raws s

/-- A DEC in a body state, with no escape pending, takes one logical byte as `Unstuff1` does (41_byte_codec.md R123). -/
theorem decUnstuffs_unstuff1 (raws : List Byte) {s : State} (hs : s.fsm.isBody = true) (hesc : s.esc = false) :
    DecUnstuffs raws s (fun v => deliver v s) (unstuff1 raws) := by
  have hdec := Fsm.isDec_of_isBody hs
  have hclear : { s with esc := false } = s := by rw [← hesc]
  match raws with
  | [] => exact ⟨s, .nil s, hdec⟩
  | r :: raws =>
    have hfirst := Takes.one r raws hdec
    rw [decByte_of_isBody r hs] at hfirst
    by_cases hr : r = Config.escapeMarker
    · subst hr
      rw [unstuffStep_escapeMarker hesc] at hfirst
      match raws with
      | [] => exact hfirst.stillRuns ⟨_, .nil _, hdec⟩
      | r' :: raws =>
        have hsecond := Takes.one r' raws (s := { s with esc := true }) hdec
        rw [decByte_of_isBody r' (s := { s with esc := true }) hs] at hsecond
        cases hv : unEsc r' with
        | none =>
          rw [unstuffStep_of_unEsc_none (s := { s with esc := true }) rfl hv] at hsecond
          simp only [unstuff1, if_true, hv]
          exact hfirst.failsAfter ⟨_, _, hsecond⟩
        | some v =>
          have hdeliver : unstuffStep r' { s with esc := true } = deliver v s :=
            (unstuffStep_of_delivers (s := { s with esc := true }) (.inr ⟨rfl, hv⟩)).trans (congrArg (deliver v) hclear)
          rw [hdeliver] at hsecond
          simp only [unstuff1, if_true, hv]
          exact hfirst.trans hsecond
    · rw [unstuffStep_of_delivers (.inl ⟨hesc, hr, rfl⟩), hclear] at hfirst
      simp only [unstuff1, if_neg hr]
      exact hfirst

/-- Logical bytes delivered one after the other. -/
def deliverAll : List Byte → State → State
  | [], s => s
  | v :: vs, s => deliverAll vs (deliver v s)

/-- The next `n` logical bytes are body bytes, whatever their values. -/
def AwaitsBytes : Nat → State → Prop
  | 0, _ => True
  | n + 1, s => s.fsm.isBody = true ∧ s.esc = false ∧ ∀ v, AwaitsBytes n (deliver v s)

/-- A DEC that awaits `n` body bytes takes them as `Unstuff1` repeated does (44_frame_decoder.md R201). -/
theorem decUnstuffs_unstuffN {n : Nat} (raws : List Byte) {s : State} (h : AwaitsBytes n s) :
    DecUnstuffs raws s (fun vs => deliverAll vs s) (unstuffN n raws) := by
  induction n generalizing raws s with
  | zero => exact .zero raws s
  | succ n ih =>
    obtain ⟨hs, hesc, hnext⟩ := h
    have hone := decUnstuffs_unstuff1 raws hs hesc
    rw [unstuffN]
    cases hfirst : unstuff1 raws with
    | short => rw [hfirst] at hone; exact hone
    | bad r k => rw [hfirst] at hone; exact hone
    | got v k rest =>
      rw [hfirst] at hone
      have hmore := ih rest (hnext v)
      dsimp only
      cases hothers : unstuffN n rest with
      | short => rw [hothers] at hmore; exact Takes.stillRuns hone hmore
      | bad r k' => rw [hothers] at hmore; exact Takes.failsAfter hone hmore
      | got vs k' rest' => rw [hothers] at hmore; exact Takes.trans hone hmore

theorem unstuffN_length {n k : Nat} {raws vs rest : List Byte} (h : unstuffN n raws = .got vs k rest) :
    vs.length = n := by
  induction n generalizing raws vs k rest with
  | zero => cases h; rfl
  | succ n ih =>
    rw [unstuffN] at h
    split at h
    · cases h
    · cases h
    · split at h
      · cases h
      · cases h
      next hothers => cases h; rw [List.length_cons, ih hothers]

/-! ## The fields of a frame -/

theorem awaitsBytes_header {s : State} (hs : s.fsm = .decAddr) (hesc : s.esc = false) : AwaitsBytes 4 s := by
  refine ⟨by rw [hs]; rfl, hesc, fun a => ?_⟩
  rw [deliver_of_decAddr a hs]
  exact ⟨rfl, hesc, fun _ => ⟨rfl, hesc, fun _ => ⟨rfl, hesc, fun _ => trivial⟩⟩⟩

theorem deliverAll_header (a c st n : Byte) {s : State} (hs : s.fsm = .decAddr) :
    deliverAll [a, c, st, n] s = headerRead a c st n s := by
  rw [deliverAll, deliver_of_decAddr a hs]; rfl

theorem AwaitsPayload.awaitsBytes {n : Nat} {s : State} (h : AwaitsPayload n s) : AwaitsBytes n s := by
  induction n generalizing s with
  | zero => trivial
  | succ n ih =>
    have hs : s.fsm = .decData := h.fsm
    refine ⟨by rw [hs]; rfl, h.esc, fun v => ?_⟩
    rw [deliver_of_decData v hs]
    exact ih (h.after_deliverData v)

theorem AwaitsPayload.deliverAll_eq {p : List Byte} {s : State} (h : AwaitsPayload p.length s) :
    deliverAll p s = payloadRead p s := by
  induction p generalizing s with
  | nil => exact h.payloadRead_nil.symm
  | cons b p ih =>
    have hs : s.fsm = .decData := h.fsm
    rw [deliverAll, deliver_of_decData b hs, ih (h.after_deliverData b), h.payloadRead_cons]

/-- The length byte says how many payload bytes come (44_frame_decoder.md R197). -/
theorem awaitsPayload_headerRead (a c st n : Byte) {s : State} (hesc : s.esc = false) :
    AwaitsPayload n.toNat (headerRead a c st n s) := by
  have hzero : n = 0#8 ↔ n.toNat = 0 := by rw [← BitVec.toNat_inj]; rfl
  refine ⟨?_, hesc, Nat.zero_add _⟩
  simp only [headerRead, deliverLen, hzero]

/-- A DEC that was in `s` when it had the leading delimiter and all the fields of a frame, of any length byte and any checksum
byte, and waits for the trailing delimiter (44_frame_decoder.md R194 to R199). -/
def frameRead (a c st n : Byte) (p : List Byte) (k : Byte) (s : State) : State :=
  { s with
    rxAddr := a
    rxCmd := c
    rxState := if s.strict then st else c
    rxLen := n
    rxCksum := if s.strict then k else c
    rxCksumCalc := cks (a :: c :: st :: n :: p)
    mem := s.mem.writeBlock rxpBase p
    fsm := .decEof
    idx := n
    sum := byteSum (a :: c :: st :: n :: p)
    ckraw := k }

/-- The deliveries of the fields come to `frameRead`; the sum covers the bytes as they were read, in both modes
(44_frame_decoder.md R199). -/
theorem deliverCks_payloadRead_headerRead (a c st n : Byte) (p : List Byte) (k : Byte) (s : State) :
    deliverCks k (payloadRead p (headerRead a c st n (opened s))) = frameRead a c st n p k s := by
  simp [deliverCks, payloadRead, headerRead, deliverLen, deliverState, deliverCmd, deliverAddr, opened, frameRead, cks,
    BitVec.add_assoc]

/-- A block that has been written is read back. -/
theorem Memory.readBlock_writeBlock (m : Memory) (a : Nat) (p : List Byte) :
    (m.writeBlock a p).readBlock a p.length = some p := by
  induction p generalizing m a with
  | nil => rfl
  | cons b p ih =>
    have hfirst : (m.writeBlock a (b :: p)).read a = some b :=
      Memory.read_writeBlock_inside m a (p := b :: p) (i := 0) (Nat.succ_pos _)
    have hothers : (m.writeBlock a (b :: p)).readBlock (a + 1) p.length = some p := ih (m.write a b) (a + 1)
    simp only [List.length_cons, Memory.readBlock, hfirst, hothers]

/-! ## `DecodeFrame` -/

/-- `t` hands over the packet `k`, read by a DEC that was in `s` (44_frame_decoder.md R204). -/
structure HandsOver (k : Packet) (s t : State) : Prop where
  status : t.status = statusFinish (statusPacket s.status true (k.len == 0#8))
  errcode : t.errcode = s.errcode
  addr : t.rxAddr = k.addr
  cmd : t.rxCmd = k.cmd
  state : t.rxState = k.state
  len : t.rxLen = k.len
  cksum : t.rxCksum = k.cksum
  cksumCalc : t.rxCksumCalc = k.cksumCalc
  payload : t.rxPayload = some k.payload

/-- The packet of `DecodeFrame` from the bytes of a frame: REFERENCE mode copies the command byte (44_frame_decoder.md R201,
R205). -/
def packetOf (strict : Bool) (a c st n : Byte) (p : List Byte) (k : Byte) : Packet where
  addr := a
  cmd := c
  state := if strict then st else c
  len := n
  payload := p
  cksum := if strict then k else c
  cksumCalc := cks (a :: c :: st :: n :: p)

theorem handsOver_frameRead (a c st n : Byte) {p : List Byte} (k : Byte) (s : State) (hp : p.length = n.toNat) :
    HandsOver (packetOf s.strict a c st n p k) s (packetHeld (frameRead a c st n p k s)) where
  status := rfl
  errcode := rfl
  addr := rfl
  cmd := rfl
  state := rfl
  len := rfl
  cksum := rfl
  cksumCalc := rfl
  payload := by
    have h := Memory.readBlock_writeBlock s.mem rxpBase p
    rw [hp] at h
    exact h

/-- What a DEC in `s` does with `raws` when `DecodeFrame` answers so (44_frame_decoder.md R201, R202, R207). -/
def DecGives (raws : List Byte) (s : State) : Decoded → Prop
  | .packet k m => ∃ rest t, Takes raws s m rest t ∧ HandsOver k s t
  | .framing stop r m => FailsAfter raws s m (.framing stop) r
  | .stuffing r m => FailsAfter raws s m .stuffing r
  | .checksum k m => FailsAfter raws s m .checksum k
  | .holds => StillRuns raws s

section
variable {strict : Bool} {a c st n k : Byte} {p : List Byte} (m : Nat) (rest : List Byte)

/-- A wrong trailing delimiter in `DecodeFrame` (44_frame_decoder.md R201). -/
theorem decodeEnd_of_ne {r : Byte} (hr : r ≠ Config.delimiter) :
    decodeEnd strict a c st n p k m (r :: rest) = .framing true r (m + 1) := if_pos hr

/-- A wrong checksum in `DecodeFrame`, in STRICT mode (44_frame_decoder.md R201). -/
theorem decodeEnd_of_cksum_ne (hstrict : strict = true) (hne : k ≠ cks (a :: c :: st :: n :: p)) :
    decodeEnd strict a c st n p k m (Config.delimiter :: rest) = .checksum k (m + 1) := by
  simp [decodeEnd, hstrict, hne]

/-- A frame that passes the check of its mode in `DecodeFrame` (44_frame_decoder.md R201). -/
theorem decodeEnd_of_passed (h : strict = true → k = cks (a :: c :: st :: n :: p)) :
    decodeEnd strict a c st n p k m (Config.delimiter :: rest) = .packet (packetOf strict a c st n p k) (m + 1) := by
  simpa [decodeEnd, packetOf] using h

end

/-- From the trailing delimiter on, where DEC and `DecodeFrame` make the same two tests (44_frame_decoder.md R200). -/
theorem decGives_decodeEnd {raws rest : List Byte} {s : State} {a c st n k : Byte} {p : List Byte} {m : Nat}
    (hp : p.length = n.toNat) (h : Takes raws s m rest (frameRead a c st n p k s)) :
    DecGives raws s (decodeEnd s.strict a c st n p k m rest) := by
  match rest with
  | [] => exact h.stillRuns ⟨_, .nil _, rfl⟩
  | r :: rest =>
    have hend := h.trans (.one r rest rfl)
    rw [decByte_of_decEof r rfl] at hend
    by_cases hr : r = Config.delimiter
    · subst hr
      by_cases hpassed : s.strict = true → k = cks (a :: c :: st :: n :: p)
      · rw [decEofByte_of_passed (s := frameRead a c st n p k s) hpassed] at hend
        rw [decodeEnd_of_passed m rest hpassed]
        exact ⟨_, _, hend, handsOver_frameRead a c st n k s hp⟩
      · obtain ⟨hstrict, hne⟩ := Classical.not_imp.1 hpassed
        rw [decEofByte_of_cksum_ne (s := frameRead a c st n p k s) hstrict hne] at hend
        rw [decodeEnd_of_cksum_ne m rest hstrict hne]
        exact ⟨_, _, hend⟩
    · rw [decEofByte_of_ne hr] at hend
      rw [decodeEnd_of_ne m rest hr]
      exact ⟨_, _, hend⟩

/-- From the payload on (44_frame_decoder.md R198, R199). -/
theorem decGives_decodeTail {raws rest : List Byte} {s : State} {a c st n : Byte} {m : Nat} (hesc : s.esc = false)
    (h : Takes raws s m rest (headerRead a c st n (opened s))) :
    DecGives raws s (decodeTail s.strict a c st n m rest) := by
  have hawaits := awaitsPayload_headerRead a c st n (s := opened s) hesc
  have hpayload := decUnstuffs_unstuffN rest hawaits.awaitsBytes
  rw [decodeTail]
  cases hp : unstuffN n.toNat rest with
  | short => rw [hp] at hpayload; exact h.stillRuns hpayload
  | bad r t => rw [hp] at hpayload; exact h.failsAfter hpayload
  | got p t rest' =>
    have hlen := unstuffN_length hp
    have hread : deliverAll p (headerRead a c st n (opened s)) = payloadRead p (headerRead a c st n (opened s)) :=
      AwaitsPayload.deliverAll_eq (by rw [hlen]; exact hawaits)
    rw [hp] at hpayload
    dsimp only [DecUnstuffs] at hpayload
    rw [hread] at hpayload
    have hescRead : (payloadRead p (headerRead a c st n (opened s))).esc = false := hawaits.esc
    have hcksum := decUnstuffs_unstuff1 rest' rfl hescRead
    dsimp only
    cases hk : unstuff1 rest' with
    | short => rw [hk] at hcksum; exact (h.trans hpayload).stillRuns hcksum
    | bad r t' => rw [hk] at hcksum; exact (h.trans hpayload).failsAfter hcksum
    | got k t' rest'' =>
      rw [hk] at hcksum
      dsimp only [DecUnstuffs] at hcksum
      rw [deliver_of_decCks k rfl, deliverCks_payloadRead_headerRead] at hcksum
      exact decGives_decodeEnd hlen ((h.trans hpayload).trans hcksum)

/-- Four logical bytes are the four fields of a header. -/
theorem fields_of_length_eq_four {vs : List Byte} (h : vs.length = 4) : ∃ a c st n, vs = [a, c, st, n] := by
  match vs, h with
  | [a, c, st, n], _ => exact ⟨a, c, st, n, rfl⟩

/-- From the header on (44_frame_decoder.md R194 to R197). -/
theorem decGives_decodeHeader {raws rest : List Byte} {s : State} {m : Nat} (hesc : s.esc = false)
    (h : Takes raws s m rest (opened s)) : DecGives raws s (decodeHeader s.strict m rest) := by
  have hheader := decUnstuffs_unstuffN rest (awaitsBytes_header (s := opened s) rfl hesc)
  rw [decodeHeader]
  cases hh : unstuffN 4 rest with
  | short => rw [hh] at hheader; exact h.stillRuns hheader
  | bad r t => rw [hh] at hheader; exact h.failsAfter hheader
  | got vs t rest' =>
    rw [hh] at hheader
    obtain ⟨a, c, st, n, rfl⟩ : ∃ a c st n, vs = [a, c, st, n] :=
      fields_of_length_eq_four (unstuffN_length hh)
    dsimp only [DecUnstuffs] at hheader
    rw [deliverAll_header a c st n rfl] at hheader
    exact decGives_decodeTail hesc (h.trans hheader)

/-- A DEC that waits for the leading delimiter does with a raw stream what `DecodeFrame` says (44_frame_decoder.md R201). -/
theorem decGives_decodeFrame (raws : List Byte) {s : State} (hs : s.fsm = .decSof) (hesc : s.esc = false) :
    DecGives raws s (decodeFrame s.strict raws) := by
  have hdec : s.fsm.isDec = true := by rw [hs]; rfl
  match raws with
  | [] => exact ⟨s, .nil s, hdec⟩
  | r :: raws =>
    have hfirst := Takes.one r raws hdec
    rw [decByte_of_decSof r hs] at hfirst
    by_cases hr : r = Config.delimiter
    · subst hr
      rw [decSofByte_delimiter] at hfirst
      simpa [decodeFrame] using decGives_decodeHeader hesc hfirst
    · rw [decSofByte_of_ne hr] at hfirst
      simpa [decodeFrame, hr] using ⟨_, _, hfirst⟩

/-! ## The steps of the machine -/

theorem status_deliver (v : Byte) (s : State) : (deliver v s).status = s.status := by
  unfold deliver
  split <;> rfl

/-- A raw byte that does not end the DEC leaves STATUS. -/
theorem status_decByte {r : Byte} {s : State} (hs : s.fsm.isDec = true) (ht : (decByte r s).fsm.isDec = true) :
    (decByte r s).status = s.status := by
  rcases decByte_cases r s hs with ⟨-, hb⟩ | ⟨-, hb⟩ | ⟨-, hb⟩ <;> rw [hb] at ht ⊢
  · rcases decSofByte_cases r s with hc | hc <;> rw [hc] at ht ⊢
    cases ht
  · rcases unstuffStep_cases r s with ⟨v, hc⟩ | hc | hc <;> rw [hc] at ht ⊢
    · exact status_deliver v { s with esc := false }
    · cases ht
  · rcases decEofByte_cases r s with ⟨e, info, hc⟩ | hc <;> rw [hc] at ht <;> cases ht

theorem Reads.isDec_of_isDec {raws : List Byte} {s t : State} (h : Reads raws s t) (ht : t.fsm.isDec = true) :
    s.fsm.isDec = true := by
  cases h with
  | nil => exact ht
  | cons hs _ => exact hs

theorem Reads.status_eq {raws : List Byte} {s t : State} (h : Reads raws s t) (ht : t.fsm.isDec = true) :
    t.status = s.status := by
  induction h with
  | nil => rfl
  | cons hs hmore ih => exact (ih ht).trans (status_decByte hs (hmore.isDec_of_isDec ht))

theorem Reads.rst_eq {raws : List Byte} {s t : State} (h : Reads raws s t) : t.rst = s.rst := by
  induction h with
  | nil => rfl
  | cons hs _ ih => exact ih.trans (decByte_rst _ hs)

theorem portSteps_add (j k : Nat) (p : Ports) : portSteps (j + k) p = portSteps j p ++ portSteps k p :=
  List.replicate_append_replicate.symm

/-- A DEC with nothing left to read holds (44_frame_decoder.md R207). -/
theorem runSteps_holds (k : Nat) (rest : List Input) {s : State} (hs : s.fsm.isDec = true) (hr : s.rst = false) :
    runSteps k (took [] (portSteps k offerPorts ++ rest) s) = .next (took [] rest s) := by
  induction k with
  | zero => rfl
  | succ k ih =>
    have hhold := (decHoldsOrEndsWithTransport (took [] (portSteps (k + 1) offerPorts ++ rest) s) offerPorts
      (portSteps k offerPorts ++ rest) hs ⟨rfl, hr⟩).2 rfl (.inr rfl)
    exact (runSteps_succ hhold k).trans ih

/-- The state of a DEC that has just been accepted. -/
def decStarted (s : State) : State := decBegin (startActions (opcode .dec) s)

section
variable {s : State} {n : Nat} {rest : List Input} (hs : s.accepting = true)
  (hin : s.inputs = .host (.write 0x001#10 0x02#8) :: (portSteps n offerPorts ++ rest))
include hs hin

/-- The write of DEC to OP starts it (30_encoding.md R95). -/
theorem runSteps_decStarted : runSteps (n + 1) s =
    runSteps n (took s.rxStream (portSteps n offerPorts ++ rest) (decStarted s)) :=
  runSteps_succ ((step_hostAct hin).trans (exec_dec (s := { s with inputs := _ }) hs)) n

/-- `n` offered bytes are those that the started DEC takes from its stream. -/
theorem runSteps_of_takes {rs : List Byte} {t : State} (h : Takes s.rxStream (decStarted s) n rs t) :
    runSteps (n + 1) s = .next (took (s.rxStream.drop n) rest t) := by
  obtain ⟨used, hstream, rfl, hreads⟩ := h
  rw [runSteps_decStarted hs hin, hstream, List.drop_left]
  exact hreads.runSteps ((accepting_iff s).1 hs).1 rs rest

/-- A DEC that ends with an error reports it, with no packet held (60_exceptions.md R295, R302). -/
theorem runSteps_of_failsAfter {e : ErrorKind} {info : Byte} (h : FailsAfter s.rxStream (decStarted s) n e info) :
    ∃ t : State, runSteps (n + 1) s = .next t ∧ t.rxValid = false ∧ t.busy = false ∧ t.done = true ∧
      t.err = true ∧ t.errcode = errcodeOf e ∧ t.errbyte = info ∧ t.rxStream = s.rxStream.drop n ∧ t.inputs = rest := by
  obtain ⟨rs, u, hu⟩ := h
  refine ⟨_, runSteps_of_takes hs hin hu, ?_, raise_busy e info (unspecifyRx u), raise_done e info (unspecifyRx u),
    raise_err e info (unspecifyRx u), rfl, rfl, rfl, rfl⟩
  exact (bit_statusRaise _ 3).trans (bit_statusPacket u.status false false 3)

/-- A DEC that succeeds holds the packet, with no error reported (44_frame_decoder.md R200, R204). -/
theorem runSteps_of_handsOver {k : Packet} {rs : List Byte} {t : State} (h : Takes s.rxStream (decStarted s) n rs t)
    (hk : HandsOver k (decStarted s) t) :
    ∃ t : State, runSteps (n + 1) s = .next t ∧
      t.rxValid = true ∧ t.busy = false ∧ t.done = true ∧ t.err = false ∧ t.errcode = 0x00#8 ∧
      t.rxAddr = k.addr ∧ t.rxCmd = k.cmd ∧ t.rxState = k.state ∧ t.rxLen = k.len ∧ t.rxCksum = k.cksum ∧
      t.rxCksumCalc = k.cksumCalc ∧ t.rxPayload = some k.payload ∧
      t.rxStream = s.rxStream.drop n ∧ t.inputs = rest := by
  refine ⟨_, runSteps_of_takes hs hin h, ?_, ?_, ?_, ?_, hk.errcode, hk.addr, hk.cmd, hk.state, hk.len, hk.cksum,
    hk.cksumCalc, hk.payload, rfl, rfl⟩
  all_goals simp [State.rxValid, State.busy, State.done, State.err, took, hk.status, rxValidBit, busyBit, doneBit, errBit,
    decStarted]

/-- A DEC whose stream is too short is still busy after all of it, and no packet is held (44_frame_decoder.md R207). -/
theorem runSteps_of_stillRuns (hlen : s.rxStream.length ≤ n) (h : StillRuns s.rxStream (decStarted s)) :
    ∃ t : State, runSteps (n + 1) s = .next t ∧ t.rxValid = false ∧ t.busy = true ∧
      t.fsm.isDec = true ∧ t.rxStream = [] ∧ t.inputs = rest := by
  obtain ⟨u, hreads, hdec⟩ := h
  obtain ⟨k, rfl⟩ := Nat.exists_eq_add_of_le hlen
  have hrst := ((accepting_iff s).1 hs).1
  have hread := hreads.runSteps hrst [] (portSteps k offerPorts ++ rest)
  have hrun : runSteps (s.rxStream.length + k + 1) s = .next (took [] rest u) := by
    rw [runSteps_decStarted hs hin, portSteps_add, List.append_assoc, ← runSteps_holds k rest hdec (hreads.rst_eq.trans hrst),
      ← runSteps_add hread k, List.append_nil]
  refine ⟨_, hrun, ?_, ?_, hdec, rfl, rfl⟩
  all_goals simp [State.rxValid, State.busy, took, hreads.status_eq hdec, decStarted, rxValidBit, busyBit]

end

/-- Settles O40: `decGives_decodeFrame` says how the started DEC reads its stream, and each outcome of it is a run of the
machine. -/
theorem decRunsAgreeWithDecodeFrame : Obligations.DecRunsAgreeWithDecodeFrame := by
  intro s n rest hs hin
  have h : DecGives s.rxStream (decStarted s) (decodeFrame s.ctrlStrict s.rxStream) :=
    decGives_decodeFrame s.rxStream rfl rfl
  cases hd : decodeFrame s.ctrlStrict s.rxStream <;> rw [hd] at h <;> dsimp only
  case packet k m =>
    rintro rfl
    obtain ⟨rs, t, htakes, hk⟩ := h
    exact runSteps_of_handsOver hs hin htakes hk
  case framing stop r m =>
    rintro rfl
    have hcode : errcodeOf (.framing stop) = if stop then 0x11#8 else 0x01#8 := by cases stop <;> rfl
    rw [← hcode]
    exact runSteps_of_failsAfter hs hin h
  case stuffing r m =>
    rintro rfl
    exact runSteps_of_failsAfter hs hin h
  case checksum k m =>
    rintro rfl
    exact runSteps_of_failsAfter hs hin h
  case holds => exact fun hlen => runSteps_of_stillRuns hs hin hlen h

end Sys2Proof.Machine
end

section
/-! The family 45_response_check.md: what CHK_ACK and CHK_MEAS answer (O19, O20) and that they change only the report (O21), the
measurement words and their reading as binary32 values (O48, O49), and the return of a whole measurement (O50). -/

namespace Sys2Proof.Machine

/-! ## The ends of the two checks -/

/-- STATUS after a check that sets ACK or SAMPLE (30_encoding.md R95, 60_exceptions.md R294). -/
theorem status_endedOk_mark {k : Nat} (hk : k = ackBit ∨ k = sampleBit) (x : Byte) :
    statusFinish (setBit (statusStart x) k true) = (x &&& 0x98#8) ||| (0x02#8 ||| BitVec.twoPow 8 k) := by
  rcases hk with rfl | rfl <;> revert x <;> decide

/-- A check that sets ACK or SAMPLE and finishes right after its start actions (45_response_check.md R230, R233). -/
theorem finish_mark_startActions (i : Instr) {k : Nat} (hk : k = ackBit ∨ k = sampleBit) (s : State) :
    finish { startActions (opcode i) s with status := setBit (startActions (opcode i) s).status k true } =
      endedOk i (BitVec.twoPow 8 k) s := by
  simp only [finish, startActions_status, status_endedOk_mark hk]
  rfl

/-- The start actions leave RX_VALID (30_encoding.md R95). -/
theorem rxValid_startActions (opc : Byte) (s : State) : (startActions opc s).rxValid = s.rxValid :=
  congrArg HeldPacket.valid (writesReport_startActions opc s).heldPacket_eq

/-- What an accepted CHK_ACK does (45_response_check.md R230). -/
theorem exec_chkAck {s : State} (hs : s.accepting = true) : exec .chkAck s = .next (
    if !s.rxValid then endedWith .chkAck 0x09#8 0x00#8 s
    else if s.isAck then endedOk .chkAck 0x20#8 s
    else endedWith .chkAck 0x04#8 0x00#8 s) := by
  have hexec : exec .chkAck s = .next (chkAck (startActions (opcode .chkAck) s)) :=
    accept_of_accepting _ (fun u => .next (chkAck u)) s hs
  rw [hexec, chkAck, rxValid_startActions, raise_startActions, raise_startActions,
    finish_mark_startActions _ (.inl rfl)]
  rfl

/-- What an accepted CHK_MEAS does (45_response_check.md R233). -/
theorem exec_chkMeas {s : State} (hs : s.accepting = true) : exec .chkMeas s = .next (
    if !s.rxValid then endedWith .chkMeas 0x09#8 0x00#8 s
    else if s.rxLen = 0#8 then endedOk .chkMeas 0x00#8 s
    else if s.rxLen = 40#8 then endedOk .chkMeas 0x40#8 s
    else endedWith .chkMeas 0x05#8 s.rxLen s) := by
  have hexec : exec .chkMeas s = .next (chkMeas (startActions (opcode .chkMeas) s)) :=
    accept_of_accepting _ (fun u => .next (chkMeas u)) s hs
  rw [hexec, chkMeas, rxValid_startActions, raise_startActions, raise_startActions, finish_startActions,
    finish_mark_startActions _ (.inr rfl)]
  rfl

/-- The canonical empty acknowledgement; its checksum field counts with STRICT = 0 only (45_response_check.md R230 to R232). -/
theorem isAck_iff (s : State) : s.isAck = true ↔
    s.rxAddr = 0x00#8 ∧ s.rxCmd = 0x00#8 ∧ s.rxState = 0x00#8 ∧ s.rxLen = 0x00#8 ∧
      (bit s.ctrl 0 = false → s.rxCksum = 0x00#8) := by
  cases h : bit s.ctrl 0 <;> simp [State.isAck, State.ctrlStrict, h, and_assoc]

/-- Settles O19: the three branches of `exec_chkAck`. -/
theorem chkAckDecidesTheAcknowledgement : Obligations.ChkAckDecidesTheAcknowledgement := by
  intro s hs
  rw [exec_chkAck hs, ← isAck_iff]
  exact ⟨fun hv => by simp [hv], fun hv hack => by simp [hv, hack], fun hv hack => by simp [hv, hack]⟩

/-- Settles O20: the four branches of `exec_chkMeas`. -/
theorem chkMeasClassifiesThePayload : Obligations.ChkMeasClassifiesThePayload := by
  intro s hs
  rw [exec_chkMeas hs]
  exact ⟨fun hv => by simp [hv], fun hv h0 => by simp [hv, h0], fun hv h40 => by simp [hv, h40],
    fun hv h0 h40 => by simp [hv, h0, h40]⟩

/-! ## What a check leaves -/

/-- How an operation that ends in its first step leaves the block: idle, with or without an error. -/
inductive EndsAtOnce (i : Instr) (s : State) : State → Prop
  | ok (mark : Byte) (hmark : bit mark busyBit = false) : EndsAtOnce i s (endedOk i mark s)
  | error (code info : Byte) : EndsAtOnce i s (endedWith i code info s)

theorem exec_check_endsAtOnce {i : Instr} (hi : i ∈ [Instr.chkAck, Instr.chkMeas]) {s : State} (hs : s.accepting = true) :
    ∃ t, exec i s = .next t ∧ EndsAtOnce i s t := by
  simp only [List.mem_cons, List.not_mem_nil, or_false] at hi
  rcases hi with rfl | rfl
  · refine ⟨_, exec_chkAck hs, ?_⟩
    split
    · exact .error ..
    · split
      · exact .ok _ (by decide)
      · exact .error ..
  · refine ⟨_, exec_chkMeas hs, ?_⟩
    split
    · exact .error ..
    · split
      · exact .ok _ (by decide)
      · split
        · exact .ok _ (by decide)
        · exact .error ..

theorem EndsAtOnce.not_busy {i : Instr} {s t : State} (h : EndsAtOnce i s t) : t.busy = false := by
  cases h with
  | ok mark hmark => simpa [State.busy, endedOk, bit, busyBit] using hmark
  | error => simp [State.busy, endedWith, bit, busyBit]

/-- A sequencer at rest stays as it was, so only OP and the report are written. -/
theorem EndsAtOnce.eq_of_idle {i : Instr} {s t : State} (h : EndsAtOnce i s t) (hfsm : s.fsm = .idle) (htxq : s.txq = [])
    (hesc : s.esc = false) :
    t = { s with op := opcode i, status := t.status, errcode := t.errcode, errbyte := t.errbyte } := by
  cases h with
  | ok => simp only [endedOk, hfsm, htxq]
  | error => simp only [endedWith, hfsm, htxq, hesc]

/-- Settles O21: a check ends at once in a block at rest, and keeps the packet and the frame that every start step keeps. -/
theorem checksChangeOnlyTheReport : Obligations.ChecksChangeOnlyTheReport := by
  intro i hi s hs hseq
  obtain ⟨hrst, hbusy⟩ := (accepting_iff s).1 hs
  obtain ⟨hfsm, htxq, hesc⟩ := hseq.of_not_busy hbusy
  obtain ⟨t, ht, hend⟩ := exec_check_endsAtOnce hi hs
  have hframe := exec_startFrame ht
  have hpacket := exec_heldPacket ht (by rintro rfl; revert hi; decide)
  have hacc : t.accepting = true := (accepting_iff t).2 ⟨(congrArg StartFrame.rst hframe).trans hrst, hend.not_busy⟩
  exact ⟨t, ht, hend.eq_of_idle hfsm htxq hesc, hend.not_busy.trans hbusy.symm, congrArg HeldPacket.valid hpacket,
    congrArg HeldPacket.empty hpacket, congrArg StartFrame.statusTop hframe, hacc⟩

/-! ## The measurement words -/

/-- A measurement word is its four bytes one after the other, the first on top (45_response_check.md R236). -/
theorem word32_eq_append (b0 b1 b2 b3 : Byte) : word32 b0 b1 b2 b3 = b0 ++ b1 ++ b2 ++ b3 := by
  rw [← BitVec.setWidth_eq (b0 ++ b1 ++ b2 ++ b3), BitVec.setWidth_append_append_append_eq_shiftLeft_setWidth_or]
  rfl

theorem measWord_of_rxp {s : State} {k : Nat} {b0 b1 b2 b3 : Byte} (h0 : s.rxp (4 * k) = some b0)
    (h1 : s.rxp (4 * k + 1) = some b1) (h2 : s.rxp (4 * k + 2) = some b2) (h3 : s.rxp (4 * k + 3) = some b3) :
    s.measWord k = some (word32 b0 b1 b2 b3) := by
  simp only [State.measWord, h0, h1, h2, h3]

/-- Settles O48: each byte is cut out of the concatenation of the four. -/
theorem measurementWordsAreBigEndian : Obligations.MeasurementWordsAreBigEndian := by
  intro s k b0 b1 b2 b3 h0 h1 h2 h3
  refine ⟨_, measWord_of_rxp h0 h1 h2 h3, ?_, ?_, ?_, ?_⟩ <;> rw [word32_eq_append]
  · rw [BitVec.extractLsb'_append_eq_of_le (by decide), BitVec.extractLsb'_append_eq_of_le (by decide)]
    exact BitVec.extractLsb'_append_eq_left
  · rw [BitVec.extractLsb'_append_eq_of_le (by decide), BitVec.extractLsb'_append_eq_of_le (by decide)]
    exact BitVec.extractLsb'_append_eq_right
  · rw [BitVec.extractLsb'_append_eq_of_le (by decide)]
    exact BitVec.extractLsb'_append_eq_right
  · exact BitVec.extractLsb'_append_eq_right

/-! ## A measurement word as a binary32 value -/

theorem b32Sign_ofNat (n : Nat) : b32Sign (BitVec.ofNat 32 n) = decide (n / 2 ^ 31 % 2 = 1) := by
  rw [b32Sign, BitVec.getLsbD_ofNat, Nat.testBit_eq_decide_div_mod_eq, decide_eq_true (by decide : 31 < 32), Bool.true_and]

theorem b32Exponent_ofNat (n : Nat) : b32Exponent (BitVec.ofNat 32 n) = n / 2 ^ 23 % 2 ^ 8 := by
  rw [b32Exponent, BitVec.extractLsb'_toNat, BitVec.toNat_ofNat, Nat.shiftRight_eq_div_pow]
  omega

theorem b32Fraction_ofNat (n : Nat) : b32Fraction (BitVec.ofNat 32 n) = n % 2 ^ 23 := by
  rw [b32Fraction, BitVec.extractLsb'_toNat, BitVec.toNat_ofNat, Nat.shiftRight_zero]
  omega

/-- The three fields of a word come back from the sum of their weighted values (45_response_check.md R240). -/
theorem b32_fields {neg : Bool} {e f n : Nat} (he : e < 256) (hf : f < 0x800000)
    (hn : n = (if neg then 0x80000000 else 0) + e * 0x800000 + f) :
    b32Sign (BitVec.ofNat 32 n) = neg ∧ b32Exponent (BitVec.ofNat 32 n) = e ∧ b32Fraction (BitVec.ofNat 32 n) = f := by
  rw [b32Sign_ofNat, b32Exponent_ofNat, b32Fraction_ofNat]
  cases neg with
  | false =>
    rw [if_neg Bool.false_ne_true] at hn
    rw [decide_eq_false_iff_not]
    omega
  | true =>
    rw [if_pos rfl] at hn
    rw [decide_eq_true_iff]
    omega

/-- Settles O49: `binary32` looks at the three fields alone. -/
theorem measurementWordsReadAsBinary32 : Obligations.MeasurementWordsReadAsBinary32 := by
  intro neg e f he hf
  obtain ⟨hsign, hexponent, hfraction⟩ := b32_fields (neg := neg) he hf rfl
  rw [binary32, hsign, hexponent, hfraction]

/-! ## The return of a measurement

`f i` stands for the value that RXP[i] holds. -/

/-- The values of the first `n` entries of RXP, where each of them holds one. -/
theorem exists_rxp_values {s : State} {n : Nat} (h : ∀ i, i < n → (s.rxp i).isSome = true) :
    ∃ f : Nat → Byte, ∀ i, i < n → s.rxp i = some (f i) := by
  refine ⟨fun i => (s.rxp i).getD 0#8, fun i hi => ?_⟩
  obtain ⟨b, hb⟩ := Option.isSome_iff_exists.1 (h i hi)
  simp only [hb, Option.getD_some]

/-- `MeasWord(k)` of the bytes `f` (45_response_check.md R236). -/
def wordAt (f : Nat → Byte) (k : Nat) : Word32 := word32 (f (4 * k)) (f (4 * k + 1)) (f (4 * k + 2)) (f (4 * k + 3))

/-- The ten words of a measurement in the source's order (45_response_check.md R237). -/
def measurementOfWords (w : Nat → Word32) : Measurement where
  massPm1 := w 0
  massPm2_5 := w 1
  massPm4 := w 2
  massPm10 := w 3
  number0_5 := w 4
  number1 := w 5
  number2_5 := w 6
  number4 := w 7
  number10 := w 8
  typicalSize := w 9

theorem map_range_add_four (f : Nat → Byte) (n : Nat) :
    (List.range (n + 4)).map f = f 0 :: f 1 :: f 2 :: f 3 :: (List.range n).map fun i => f (i + 4) := by
  simp [List.range_succ_eq_map, Function.comp_def]

theorem measWordOf_map_range (f : Nat → Byte) {k n : Nat} (hn : 4 * k + 4 ≤ n) :
    measWordOf ((List.range n).map f) k = some (wordAt f k) := by
  induction k generalizing f n with
  | zero =>
    obtain ⟨m, rfl⟩ := Nat.exists_eq_add_of_le' hn
    rw [map_range_add_four]
    rfl
  | succ k ih =>
    obtain ⟨m, rfl⟩ := Nat.exists_eq_add_of_le' (Nat.le_of_add_left_le hn)
    rw [map_range_add_four]
    exact ih (fun i => f (i + 4)) (by omega)

theorem measurementOf_of_words {p : List Byte} {w : Nat → Word32} (h : ∀ k, k < 10 → measWordOf p k = some (w k)) :
    measurementOf p = some (measurementOfWords w) := by
  simp [measurementOf, measurementOfWords, h]

/-- The state after the host agent has read `bs` of RXP, `last` the byte on host_rdata. -/
def collected (bs : List Byte) (last : Byte) (l : List HostCtl) (rest : List Input) (s : State) : State :=
  { s with hostRdata := last, host := { s.host with script := l, got := s.host.got ++ bs }, inputs := rest }

/-- A turn at the read of an entry that holds a value, outside a DEC (20_memory.md R70). -/
theorem step_collect {s : State} {i : Nat} {b : Byte} {l : List HostCtl} {rest : List Input} (hs : s.fsm.isDec = false)
    (hi : i < 256) (hb : s.rxp i = some b) (hin : s.inputs = .turn :: rest) (hscript : s.host.script = .collect i :: l) :
    step s = .next (collected [b] b l rest s) := by
  have hread : hostRead (regAddr (.rxp i)) { s with inputs := rest } = { s with inputs := rest, hostRdata := b } :=
    hostRead_of_value _ _ b (fun _ => hs) ((regValue_rxp { s with inputs := rest } hi).trans hb)
  rw [step_turn hin hscript, runCtl, runCollect, hread]
  rfl

/-- The reads of a list of entries, one a turn (46_host_operations.md R265; log 9). -/
theorem runSteps_collect {f : Nat → Byte} {is : List Nat} {s : State} {l : List HostCtl} {rest : List Input}
    (hs : s.fsm.isDec = false) (hf : ∀ i ∈ is, i < 256 ∧ s.rxp i = some (f i))
    (hscript : s.host.script = is.map .collect ++ l) (hin : s.inputs = List.replicate is.length .turn ++ rest) :
    ∃ last, runSteps is.length s = .next (collected (is.map f) last l rest s) := by
  induction is generalizing s with
  | nil =>
    have hl : s.host.script = l := hscript
    have hrest : s.inputs = rest := hin
    subst hl hrest
    exact ⟨s.hostRdata, by simp [collected]⟩
  | cons i is ih =>
    obtain ⟨hi, hb⟩ := hf i List.mem_cons_self
    have hstep := step_collect hs hi hb hin hscript
    obtain ⟨last, hrun⟩ := ih (s := collected _ _ _ _ s) hs (fun j hj => hf j (List.mem_cons_of_mem i hj)) rfl rfl
    refine ⟨last, (runSteps_succ hstep _).trans (hrun.trans ?_)⟩
    simp [collected]

/-- A turn at the return of a measurement whose bytes have been read (46_host_operations.md R265). -/
theorem step_measure {s : State} {m : Measurement} {l : List HostCtl} {rest : List Input} (hin : s.inputs = .turn :: rest)
    (hscript : s.host.script = .measure :: l) (hm : measurementOf s.host.got = some m) :
    step s = .next (endCall (.measurement m) { s with inputs := rest }) := by
  simp only [step_turn hin hscript, runCtl, runMeasure, hm]

/-- Settles O50: forty turns collect the bytes, and the last returns the words they make up. -/
theorem measurementReturnsTheTenWordsInOrder : Obligations.MeasurementReturnsTheTenWordsInOrder := by
  intro s rest hs hscript hgot hrxp hin
  obtain ⟨f, hf⟩ := exists_rxp_values hrxp
  have hword (k : Nat) (hk : k < 10) : some (wordAt f k) = s.measWord k :=
    (measWord_of_rxp (hf _ (by omega)) (hf _ (by omega)) (hf _ (by omega)) (hf _ (by omega))).symm
  have hvalues : ∀ i ∈ List.range 40, i < 256 ∧ s.rxp i = some (f i) := fun i hi =>
    have hlt := List.mem_range.1 hi
    ⟨by omega, hf i hlt⟩
  obtain ⟨last, hreads⟩ := runSteps_collect (l := [.measure]) (rest := .turn :: rest) hs hvalues hscript hin
  have hm : measurementOf (s.host.got ++ (List.range 40).map f) = some (measurementOfWords (wordAt f)) := by
    rw [hgot]
    exact measurementOf_of_words fun k hk => measWordOf_map_range f (by omega)
  have hreturn := step_measure (s := collected ((List.range 40).map f) last [.measure] (.turn :: rest) s) rfl rfl hm
  exact ⟨measurementOfWords (wordAt f), _, (runSteps_add hreads 1).trans (runSteps_succ hreturn 0), rfl, rfl, rfl,
    hword 0 (by decide), hword 1 (by decide), hword 2 (by decide), hword 3 (by decide), hword 4 (by decide),
    hword 5 (by decide), hword 6 (by decide), hword 7 (by decide), hword 8 (by decide), hword 9 (by decide), rfl⟩

end Sys2Proof.Machine
end

section
/-! The family 46_host_operations.md: the errors that a host reports (O51), one turn at each control statement (O52, O53), how a
waiting call starts (O54), the per-call state of R268 (O55), and a whole START_MEASUREMENT (O56). -/

namespace Sys2Proof.Machine

/-! ## The errors that a host reports -/

/-- Settles O51: each error kind has its own code, and RETRIES_EXHAUSTED is not among the legal values of ERRCODE. -/
theorem hostReportsTheBlocksErrorKind : Obligations.HostReportsTheBlocksErrorKind := by
  have hexhausted : 0x06#8 ∉ legalErrcodes := by decide
  refine ⟨fun e => ?_, rfl, fun e => ⟨fun h => hexhausted (h ▸ errcodeOf_legal e), errcodeOf_legal e⟩⟩
  cases e with
  | framing stop => cases stop <;> rfl
  | _ => rfl

/-! ## One turn at a control statement

A test reads STATUS and chooses what the call has still to run. -/

/-- The host agent has read STATUS, and `l` is what it has still to run (46_host_operations.md R262 to R265). -/
def tested (l : List HostCtl) (s : State) : State := setScript l { s with hostRdata := s.status }

theorem ite_setScript (b : Bool) (l l' : List HostCtl) (s : State) :
    (if b then setScript l s else setScript l' s) = setScript (if b then l else l') s :=
  (apply_ite (setScript · s) _ l l').symm

theorem runWait_eq (l : List HostCtl) (s : State) :
    runWait l s = tested (if s.busy then .stmt .wait :: l else l) s := by
  simp only [runWait, hostRead_status, ite_setScript]; rfl

theorem runCheck_eq (l : List HostCtl) (s : State) : runCheck l s = tested (if s.err then [.fail] else l) s := by
  simp only [runCheck, hostRead_status, ite_setScript]; rfl

theorem runIfSample_eq (l : List HostCtl) (s : State) :
    runIfSample l s = tested (if s.sample then returnScript else l) s := by
  simp only [runIfSample, hostRead_status, ite_setScript]; rfl

theorem runFail_eq (s : State) :
    runFail s = endCall (.failed (hostErrorOf s.errcode)) { s with hostRdata := s.errcode } := by
  simp only [runFail, hostRead_errcode]

section
variable {s : State} {l : List HostCtl} {rest : List Input} (hin : s.inputs = .turn :: rest)
include hin

theorem step_wait (hscript : s.host.script = .stmt .wait :: l) :
    step s = .next (tested (if s.busy then .stmt .wait :: l else l) { s with inputs := rest }) := by
  rw [step_turn hin hscript, runCtl, runWait_eq]; rfl

theorem step_check (hscript : s.host.script = .check :: l) :
    step s = .next (tested (if s.err then [.fail] else l) { s with inputs := rest }) := by
  rw [step_turn hin hscript, runCtl, runCheck_eq]; rfl

theorem step_ifSample (hscript : s.host.script = .ifSample :: l) :
    step s = .next (tested (if s.sample then returnScript else l) { s with inputs := rest }) := by
  rw [step_turn hin hscript, runCtl, runIfSample_eq]; rfl

theorem step_fail (hscript : s.host.script = .fail :: l) : step s =
    .next (endCall (.failed (hostErrorOf s.errcode)) { s with inputs := rest, hostRdata := s.errcode }) := by
  rw [step_turn hin hscript, runCtl, runFail_eq]

theorem step_succeed (hscript : s.host.script = .succeed :: l) :
    step s = .next (endCall .success { s with inputs := rest }) := by
  rw [step_turn hin hscript, runCtl]

theorem step_retry {n : Nat} (hscript : s.host.script = .retry n :: l) :
    step s = .next (runRetry n { s with inputs := rest }) := by
  rw [step_turn hin hscript, runCtl]

/-- With no call running, a turn makes the oldest waiting call the running one (46_host_operations.md R272; log 9). -/
theorem step_nextCall {c : HostCall} {cs : List HostCall} (hscript : s.host.script = []) (hwaiting : s.host.waiting = c :: cs) :
    step s = .next { s with
      inputs := rest
      host := { s.host with call := some c, script := expandCall c, waiting := cs, attempt := 0, got := [] } } := by
  simp only [step, hin, runInput, hostTurn, hscript, nextCall, hwaiting]

end

/-- Settles O52: the two branches of `runRetry`. -/
theorem retryLoopStopsAtTheCeiling : Obligations.RetryLoopStopsAtTheCeiling := by
  intro s n l rest hin hscript
  rw [step_retry hin hscript]
  exact ⟨fun hlt => congrArg _ (if_pos hlt), fun hle => congrArg _ (if_neg (Nat.not_lt.2 hle))⟩

/-- Settles O53: the turn at each of the five statements. -/
theorem hostTestsFollowTheStatus : Obligations.HostTestsFollowTheStatus := fun _ _ _ hin =>
  ⟨step_wait hin, step_check hin, step_fail hin, step_ifSample hin, step_succeed hin⟩

/-! ## How a waiting call starts -/

/-- The writes of a payload are one for each byte and its index (46_host_operations.md R262). -/
theorem writePayload_eq (i : Nat) (p : List Byte) :
    writePayload i p = (p.zipIdx i).map fun x => .stmt (.wr (.txp x.2) x.1) := by
  induction p generalizing i with
  | nil => rfl
  | cons b p ih => simp [writePayload, ih]

/-- Settles O54: the script that `step_nextCall` leaves is `expandCall`, whose loop over a payload is `writePayload_eq`. -/
theorem waitingCallsStartWithTheirExpansion : Obligations.WaitingCallsStartWithTheirExpansion := by
  intro s c cs rest hin hscript hwaiting
  refine ⟨expandCall c, step_nextCall hin hscript hwaiting, ?_⟩
  cases c with
  | send a k p => simp [expandCall, sendScript, waitAndCheck, lenByte, writePayload_eq]
  | readMeasuredValues n => cases n <;> rfl
  | recv | startMeasurement | script => rfl

/-! ## The per-call state -/

/-- The two calls of the command protocol have the state of their script (46_host_operations.md R268). -/
theorem callPhase_eq_runningPhase {s : State} {c : HostCall} (hcall : s.host.call = some c)
    (hc : c = .startMeasurement ∨ ∃ m, c = .readMeasuredValues m) : s.callPhase = runningPhase s := by
  rcases hc with rfl | ⟨m, rfl⟩ <;> simp only [State.callPhase, hcall]

/-- A call that has ended is Failed exactly if its result is an error (46_host_operations.md R268). -/
theorem ended_of_results {h : HostAgent} {rs : List HostResult} {r : HostResult} (hr : h.results = rs ++ [r]) :
    ((∃ e, r = .failed e) → h.ended = .failed) ∧ ((¬ ∃ e, r = .failed e) → h.ended = .complete) := by
  have hlast : h.results.getLast? = some r := by rw [hr, List.getLast?_concat]
  cases r <;> simp [HostAgent.ended, hlast]

section
variable {s : State} {l : List HostCtl}

/-- A call that has still to start its ENC (46_host_operations.md R268). -/
theorem runningPhase_of_enc {i : Instr} (hi : i ∈ [Instr.encStart, Instr.encRead]) (h : s.host.script = .stmt (.op i) :: l) :
    runningPhase s = s.host.unsent := by
  simp only [List.mem_cons, List.not_mem_nil, or_false] at hi
  rcases hi with rfl | rfl <;> simp only [runningPhase, h, nextOp]

/-- A call whose ENC has ended, with its DEC still to start (46_host_operations.md R268). -/
theorem runningPhase_of_enc_ended (h : s.host.script = .stmt .wait :: .check :: .stmt (.op .dec) :: l) (hb : s.busy = false) :
    runningPhase s = if s.err then .failed else .sent := by
  simp [runningPhase, h, nextOp, hb]

/-- A call whose DEC has started, with its check still to start (46_host_operations.md R268). -/
theorem runningPhase_of_dec {i : Instr} (hi : i ∈ [Instr.chkAck, Instr.chkMeas])
    (h : s.host.script = .stmt .wait :: .check :: .stmt (.op i) :: l) :
    runningPhase s = if s.err then .failed else .awaitingFrame := by
  simp only [List.mem_cons, List.not_mem_nil, or_false] at hi
  rcases hi with rfl | rfl <;> simp only [runningPhase, h, nextOp]

/-- A call whose CHK_ACK has ended (46_host_operations.md R268). -/
theorem runningPhase_of_chkAck_ended (h : s.host.script = [.check, .succeed]) :
    runningPhase s = if s.err then .failed else .complete := by
  simp [runningPhase, h, nextOp, checkedPhase]

/-- A call whose CHK_MEAS has ended (46_host_operations.md R268). -/
theorem runningPhase_of_chkMeas_ended {n : Nat} (h : s.host.script = [.check, .ifSample, .retry n]) :
    runningPhase s =
      if s.err then .failed else if s.sample then .complete else if s.host.attempt < n then .retrySent else .failed := by
  simp [runningPhase, h, nextOp, checkedPhase, HostAgent.attemptsRemain]

/-- A call at the head of its loop with no attempt left (46_host_operations.md R268). -/
theorem runningPhase_of_exhausted {n : Nat} (h : s.host.script = [.retry n]) (hn : n ≤ s.host.attempt) :
    runningPhase s = .failed := by
  simp [runningPhase, h, Nat.not_lt.2 hn]

theorem runningPhase_of_ended (h : s.host.script = []) : runningPhase s = s.host.ended := by
  simp only [runningPhase, h]

end

/-- Settles O55: the state of a running call at each place of its script. -/
theorem callPhasesFollowTheOperations : Obligations.CallPhasesFollowTheOperations := by
  intro s c l n hcall hc
  rw [callPhase_eq_runningPhase hcall hc]
  refine ⟨fun i hi h => runningPhase_of_enc hi h, runningPhase_of_enc_ended, fun i hi h => runningPhase_of_dec hi h,
    runningPhase_of_chkAck_ended, runningPhase_of_chkMeas_ended, runningPhase_of_exhausted, fun h rs r hr => ?_⟩
  rw [runningPhase_of_ended h]
  exact ended_of_results hr

/-! ## A whole START_MEASUREMENT -/

/-- A bit of a register that is neither kept nor set. -/
theorem bit_and_or_eq_false {m v : Byte} {i : Nat} (x : Byte) (hm : bit m i = false) (hv : bit v i = false) :
    bit ((x &&& m) ||| v) i = false := by
  unfold bit at *
  rw [BitVec.getLsbD_or, BitVec.getLsbD_and, hm, hv, Bool.and_false, Bool.or_false]

/-- A block that was accepting accepts again once BUSY is 0 (20_memory.md R75). -/
theorem accepting_of_status {s t : State} {x m v : Byte} (hs : s.accepting = true) (hrst : t.rst = s.rst)
    (hstatus : t.status = (x &&& m) ||| v) (hm : bit m busyBit = false) (hv : bit v busyBit = false) : t.accepting = true :=
  (accepting_iff t).2 ⟨hrst.trans ((accepting_iff s).1 hs).1,
    (congrArg (bit · busyBit) hstatus).trans (bit_and_or_eq_false x hm hv)⟩

section
variable {s : State} {l : List HostCtl} {rest : List Input}

/-- The test of an error that has not come (46_host_operations.md R263). -/
theorem step_check_passes (hin : s.inputs = .turn :: rest) (hscript : s.host.script = .check :: l) (he : s.err = false) :
    step s = .next (tested l { s with inputs := rest }) := by
  simpa [he] using step_check hin hscript

/-- The wait for an operation that has ended without an error, and the test of its error (46_host_operations.md R263). -/
theorem runSteps_waitAndCheck (hin : s.inputs = .turn :: .turn :: rest) (hscript : s.host.script = waitAndCheck ++ l)
    (hb : s.busy = false) (he : s.err = false) : runSteps 2 s = .next (tested l { s with inputs := rest }) := by
  have hwait : step s = .next (tested (.check :: l) { s with inputs := .turn :: rest }) := by
    simpa [hb] using step_wait hin hscript
  have hcheck := step_check_passes (s := tested (.check :: l) { s with inputs := .turn :: rest }) rfl rfl he
  exact (runSteps_succ hwait 1).trans (runSteps_succ hcheck 0)

/-- The frame of start measurement, which ENC_START sends (43_frame_encoder.md R163). -/
def startCommandFrame : List Byte := [0x7E#8, 0x00#8, 0x00#8, 0x02#8, 0x01#8, 0x03#8, 0xF9#8, 0x7E#8]

/-- `op ENC_START; wait; check` against a willing transport: the host has had the whole frame sent, with no error
(46_host_operations.md R263; 43_frame_encoder.md R162, R163). -/
theorem runSteps_sendStart (hs : s.accepting = true) (hscript : s.host.script = .stmt (.op .encStart) :: (waitAndCheck ++ l))
    (hin : s.inputs = .turn :: (portSteps 8 takePorts ++ .turn :: .turn :: rest)) :
    runSteps 11 s = .next (tested l (sent startCommandFrame rest (startSent s))) := by
  have hstart := (hostTurnRunsTheScriptedOperation.1 s .encStart _ _ hin hscript rfl).trans
    (encStartLoadsAndQueuesTheFixedFrame _ hs)
  have hrst := ((accepting_iff s).1 hs).1
  have hsend := (runSteps_succ hstart 8).trans
    (runSteps_encEmit (q := startCommandFrame) (List.cons_ne_nil _ _) rfl hrst rfl rfl)
  refine (runSteps_add hsend 2).trans (runSteps_waitAndCheck (l := l) rfl rfl ?_ ?_)
  all_goals exact (congrArg (bit · _) (status_sent s.status)).trans (bit_and_or_eq_false _ rfl rfl)

/-- STATUS after a whole DEC (44_frame_decoder.md R200). -/
theorem status_responseHeld (a c st : Byte) (p : List Byte) (s : State) : (responseHeld a c st p s).status =
    (s.status &&& 0x80#8) ||| (if lenByte p == 0#8 then 0x1A#8 else 0x0A#8) := status_packetHeld s.status _

/-- `op DEC; wait; check` with a response frame first in the stream: the host has had it read, with no error
(46_host_operations.md R263; 44_frame_decoder.md R190). -/
theorem runSteps_receive {a c st : Byte} {p rs : List Byte} {n : Nat} (hp : p.length ≤ 255)
    (hn : (responseFrame a c st p).length = n) (hs : s.accepting = true)
    (hscript : s.host.script = .stmt (.op .dec) :: (waitAndCheck ++ l)) (hstream : s.rxStream = responseFrame a c st p ++ rs)
    (hin : s.inputs = .turn :: (portSteps n offerPorts ++ .turn :: .turn :: rest)) :
    runSteps (n + 1 + 2) s = .next (tested l (took rs rest (responseHeld a c st p (setScript (waitAndCheck ++ l) s)))) := by
  subst hn
  have hstart : step s = .next (took s.rxStream (portSteps (responseFrame a c st p).length offerPorts ++ .turn :: .turn :: rest)
      (decStarted (setScript (waitAndCheck ++ l) s))) :=
    (hostTurnRunsTheScriptedOperation.1 s .dec _ _ hin hscript rfl).trans (exec_dec hs)
  have hreads : Reads (responseFrame a c st p) (decStarted (setScript (waitAndCheck ++ l) s))
      (responseHeld a c st p (setScript (waitAndCheck ++ l) s)) := reads_responseFrame a c st hp rfl rfl
  have hread := hreads.runSteps ((accepting_iff s).1 hs).1 rs (.turn :: .turn :: rest)
  rw [← hstream, ← runSteps_succ hstart] at hread
  have hstatus := status_responseHeld a c st p (setScript (waitAndCheck ++ l) s)
  refine (runSteps_add hread 2).trans (runSteps_waitAndCheck (l := l) rfl rfl ?_ ?_)
  all_goals exact (congrArg (bit · _) hstatus).trans (bit_and_or_eq_false _ rfl (by split <;> rfl))

/-- An acknowledgement that is held answers CHK_ACK (45_response_check.md R230). -/
theorem exec_chkAck_of_isAck (hs : s.accepting = true) (hv : s.rxValid = true) (hack : s.isAck = true) :
    exec .chkAck s = .next (endedOk .chkAck 0x20#8 s) := by
  simp [exec_chkAck hs, hv, hack]

/-- The host's `op CHK_ACK` finds the acknowledgement held, and the call ends with success (46_host_operations.md R263). -/
theorem runSteps_op_chkAck (hs : s.accepting = true) (hv : s.rxValid = true) (hack : s.isAck = true)
    (hscript : s.host.script = [.stmt (.op .chkAck), .check, .succeed])
    (hin : s.inputs = .turn :: .turn :: .turn :: rest) :
    runSteps 3 s = .next
      (endCall .success { tested [.succeed] (endedOk .chkAck 0x20#8 (setScript [.check, .succeed] s)) with inputs := rest }) := by
  have hop := (hostTurnRunsTheScriptedOperation.1 s .chkAck _ _ hin hscript rfl).trans
    (exec_chkAck_of_isAck (s := { s with inputs := _, host := _ }) hs hv hack)
  have hcheck := step_check_passes
    (s := endedOk .chkAck 0x20#8 (setScript [.check, .succeed] { s with inputs := .turn :: .turn :: rest })) rfl rfl
    (bit_and_or_eq_false s.status rfl rfl)
  have hsucceed := step_succeed (s := tested [.succeed]
    { endedOk .chkAck 0x20#8 (setScript [.check, .succeed] s) with inputs := .turn :: rest }) rfl rfl
  exact (runSteps_succ hop 2).trans ((runSteps_succ hcheck 1).trans (runSteps_succ hsucceed 0))

end

/-- The raw bytes of the empty acknowledgement (45_response_check.md R232). -/
theorem responseFrame_ack : responseFrame 0x00#8 0x00#8 0x00#8 [] =
    [0x7E#8, 0x00#8, 0x00#8, 0x00#8, 0x00#8, 0xFF#8, 0x7E#8] := by decide

/-! What a whole DEC leaves of the block and of the world outside it. -/

section
variable (a c st : Byte) (p : List Byte) (s : State)

@[simp] theorem responseHeld_ctrl : (responseHeld a c st p s).ctrl = s.ctrl := by cases s; rfl
@[simp] theorem responseHeld_rst : (responseHeld a c st p s).rst = s.rst := by cases s; rfl
@[simp] theorem responseHeld_host : (responseHeld a c st p s).host = s.host := by cases s; rfl
@[simp] theorem responseHeld_txStream : (responseHeld a c st p s).txStream = s.txStream := by cases s; rfl

end

/-- What a DEC in STRICT mode holds after the empty acknowledgement is one (45_response_check.md R230, R232). -/
theorem isAck_responseHeld {s : State} (h : bit s.ctrl 0 = true) :
    (responseHeld 0x00#8 0x00#8 0x00#8 [] s).isAck = true := by
  have hstate : (responseHeld 0x00#8 0x00#8 0x00#8 [] s).rxState = if s.ctrlStrict then 0x00#8 else 0x00#8 := rfl
  rw [isAck_iff, hstate, ite_self, responseHeld_ctrl, h]
  exact ⟨rfl, rfl, rfl, rfl, Bool.noConfusion⟩

/-- What the host finds when the DEC of a STRICT block has read the empty acknowledgement: the block accepts and holds it, and
the call goes on with `l` (46_host_operations.md R263; 45_response_check.md R232). -/
structure AckReceived (s t : State) (l : List HostCtl) (rs : List Byte) (rest : List Input) : Prop where
  accepting : t.accepting = true
  rxValid : t.rxValid = true
  isAck : t.isAck = true
  status : t.status = (s.status &&& 0x80#8) ||| 0x1A#8
  host : t.host = { s.host with script := l }
  txStream : t.txStream = s.txStream
  rxStream : t.rxStream = rs
  inputs : t.inputs = rest

/-- `op DEC; wait; check` of a STRICT block with the empty acknowledgement first in the stream (46_host_operations.md R263). The
state that the DEC leaves is named only by what is said of it. -/
theorem runSteps_receiveAck {s : State} {l : List HostCtl} {rs : List Byte} {rest : List Input} (hs : s.accepting = true)
    (hstrict : bit s.ctrl 0 = true) (hscript : s.host.script = .stmt (.op .dec) :: (waitAndCheck ++ l))
    (hstream : s.rxStream = responseFrame 0x00#8 0x00#8 0x00#8 [] ++ rs)
    (hin : s.inputs = .turn :: (portSteps 7 offerPorts ++ .turn :: .turn :: rest)) :
    ∃ t : State, runSteps 10 s = .next t ∧ AckReceived s t l rs rest := by
  have hlen : (responseFrame 0x00#8 0x00#8 0x00#8 []).length = 7 := by rw [responseFrame_ack]; rfl
  have hrun := runSteps_receive (Nat.zero_le _) hlen hs hscript hstream hin
  have hstatus : (responseHeld _ _ _ _ (setScript (waitAndCheck ++ l) s)).status = (s.status &&& 0x80#8) ||| 0x1A#8 :=
    status_responseHeld 0x00#8 0x00#8 0x00#8 [] _
  have hrst := responseHeld_rst 0x00#8 0x00#8 0x00#8 [] (setScript (waitAndCheck ++ l) s)
  have hhost := responseHeld_host 0x00#8 0x00#8 0x00#8 [] (setScript (waitAndCheck ++ l) s)
  have htx := responseHeld_txStream 0x00#8 0x00#8 0x00#8 [] (setScript (waitAndCheck ++ l) s)
  have hack := isAck_responseHeld (s := setScript (waitAndCheck ++ l) s) hstrict
  generalize responseHeld 0x00#8 0x00#8 0x00#8 [] (setScript (waitAndCheck ++ l) s) = u at *
  refine ⟨_, hrun, accepting_of_status hs hrst hstatus rfl rfl, ?_, hack, hstatus, ?_, htx, rfl, rfl⟩
  · refine (congrArg (bit · rxValidBit) hstatus).trans ?_
    simp [bit, rxValidBit]
  · exact congrArg (fun h : HostAgent => { h with script := l }) hhost

/-- The inputs that START_MEASUREMENT needs once it runs: a turn a statement, and a block step a raw byte (log 9). -/
def startInputs (rest : List Input) : List Input :=
  .turn :: (portSteps 8 takePorts ++ .turn :: .turn :: .turn ::
    (portSteps 7 offerPorts ++ .turn :: .turn :: .turn :: .turn :: .turn :: rest))

/-- STATUS after the send, the DEC and the check of a START_MEASUREMENT that succeeds (46_host_operations.md R263). -/
theorem status_started (x : Byte) :
    ((((((x &&& 0x98#8) ||| 0x02#8) &&& 0x80#8) ||| 0x1A#8) &&& 0x98#8) ||| (0x02#8 ||| 0x20#8)) = (x &&& 0x80#8) ||| 0x3A#8 := by
  revert x; decide

/-- The statements of START_MEASUREMENT, run to its return of success (46_host_operations.md R263). -/
theorem runSteps_startScript {s : State} {rs : List Byte} {rest : List Input} (hs : s.accepting = true)
    (hstrict : bit s.ctrl 0 = true) (hscript : s.host.script = startScript)
    (hstream : s.rxStream = responseFrame 0x00#8 0x00#8 0x00#8 [] ++ rs) (hin : s.inputs = startInputs rest) :
    ∃ t : State, runSteps 24 s = .next t ∧ t.host = { s.host with script := [], results := s.host.results ++ [.success] } ∧
      t.txStream = s.txStream ++ startCommandFrame ∧ t.rxStream = rs ∧ t.inputs = rest ∧
      t.status = (s.status &&& 0x80#8) ||| 0x3A#8 ∧ t.errcode = 0x00#8 := by
  have hsend := runSteps_sendStart hs hscript hin
  have hsent := status_sent s.status
  obtain ⟨u, hreceive, hu⟩ := runSteps_receiveAck (s := tested _ (sent startCommandFrame _ (startSent s)))
    (l := [.stmt (.op .chkAck), .check, .succeed]) (rest := .turn :: .turn :: .turn :: rest)
    (accepting_of_status hs rfl hsent rfl rfl) hstrict rfl hstream rfl
  have hcheck := runSteps_op_chkAck hu.accepting hu.rxValid hu.isAck (congrArg HostAgent.script hu.host) hu.inputs
  have hrun := (runSteps_add hsend 13).trans ((runSteps_add hreceive 3).trans hcheck)
  have hread : u.status = (((s.status &&& 0x98#8) ||| 0x02#8) &&& 0x80#8) ||| 0x1A#8 :=
    hu.status.trans (congrArg (fun x => (x &&& 0x80#8) ||| 0x1A#8) hsent)
  refine ⟨_, hrun, ?_, hu.txStream, hu.rxStream, rfl, ?_, rfl⟩
  · simp [endCall, tested, endedOk, setScript, hu.host, sent, startSent, sending]
  · exact (congrArg (fun x => (x &&& 0x98#8) ||| (0x02#8 ||| 0x20#8)) hread).trans (status_started s.status)

/-- Settles O56: the turn that starts the call, and then its statements. -/
theorem startMeasurementSucceedsOnTheAcknowledgement : Obligations.StartMeasurementSucceedsOnTheAcknowledgement := by
  intro s rs waiting rest hs hstrict hscript hwaiting hstream hin
  have hinputs : s.inputs = .turn :: startInputs rest := by simpa [startInputs] using hin
  rw [← responseFrame_ack] at hstream
  have hcall := step_nextCall hinputs hscript hwaiting
  obtain ⟨t, hrun, hhost, htx, hrx, hrest, hstatus, herr⟩ :=
    runSteps_startScript (rest := rest) (s := { s with inputs := startInputs rest, host := { s.host with
      call := some .startMeasurement, script := startScript, waiting := waiting, attempt := 0, got := [] } })
      hs hstrict rfl hstream rfl
  exact ⟨t, (runSteps_succ hcall 24).trans hrun, congrArg HostAgent.results hhost, congrArg HostAgent.script hhost,
    congrArg HostAgent.waiting hhost, htx, hrx, hrest, hstatus, herr⟩

end Sys2Proof.Machine
end

section
/-! The family 70_reset_and_hazards.md: an ENC of an unwritten payload faults (O13) and no other step does (O47), the state after
reset (O41, O43), and what the inputs of a block in reset do (O44). -/

namespace Sys2Proof.Machine

/-! ## The fault of an ENC -/

/-- Settles O13: the start actions leave the payload as it is, and `ENC_start()` finds it missing. -/
theorem encOfUnwrittenPayloadFaults : Obligations.EncOfUnwrittenPayloadFaults := by
  intro s hs hw
  have hnone : s.txPayload = none := by rwa [← txPayload_isSome_iff, Option.not_isSome_iff_eq_none] at hw
  calc exec .enc s = encBegin (startActions (opcode .enc) s) := accept_of_accepting _ _ s hs
    _ = .fault .unwrittenPayload := by
      rcases encBegin_cases (startActions (opcode .enc) s) with ⟨-, hfault⟩ | ⟨p, hp, -⟩
      · exact hfault
      · exact absurd (hnone.symm.trans hp) nofun

/-- The fault `f` is that of an accepted ENC whose payload is not written in `s` (70_reset_and_hazards.md R341). -/
structure FaultsUnwritten (s : State) (f : Fault) : Prop where
  fault : f = .unwrittenPayload
  accepting : s.accepting = true
  unwritten : ¬ PayloadWritten s

/-- Every instruction is answered by a next state, but for an ENC that faults. -/
theorem exec_cases (i : Instr) (s : State) :
    (∃ t, exec i s = .next t) ∨ ∃ f, i = .enc ∧ exec i s = .fault f ∧ FaultsUnwritten s f := by
  cases hs : s.accepting with
  | false => exact .inl ⟨s, exec_of_not_accepting i s hs⟩
  | true =>
    cases i with
    | enc =>
      by_cases hw : PayloadWritten s
      · obtain ⟨p, -, -, hnext⟩ := encQueuesTheHeldFrame s hs hw
        exact .inl ⟨_, hnext⟩
      · exact .inr ⟨_, rfl, encOfUnwrittenPayloadFaults s hs hw, rfl, hs, hw⟩
    | nop => exact .inl ⟨_, nopEndsAtOnceWithoutError s hs⟩
    | dec => exact .inl ⟨_, exec_dec hs⟩
    | encStart | wireStartMeasurement => exact .inl ⟨_, accept_loadStart hs⟩
    | encRead | wireReadMeasuredValues => exact .inl ⟨_, accept_loadRead hs⟩
    | chkAck => exact .inl ⟨_, exec_chkAck hs⟩
    | chkMeas => exact .inl ⟨_, exec_chkMeas hs⟩
    | _ => exact .inl ⟨_, (exec_reserved (by decide) s).trans (accept_of_accepting _ illegalOp s hs)⟩

theorem exec_fault {i : Instr} {s : State} {f : Fault} (h : exec i s = .fault f) : i = .enc ∧ FaultsUnwritten s f := by
  rcases exec_cases i s with ⟨t, ht⟩ | ⟨g, hi, hg, hfault⟩
  · cases ht.symm.trans h
  · cases hg.symm.trans h; exact ⟨hi, hfault⟩

theorem exec_ne_refused (i : Instr) (s : State) (r : Refusal) : exec i s ≠ .refused r := by
  intro h
  rcases exec_cases i s with ⟨t, ht⟩ | ⟨f, -, hf, -⟩
  · cases ht.symm.trans h
  · cases hf.symm.trans h

/-! ## How an input reaches an ENC -/

/-- A host write faults only as a write of ENC to OP, of whatever high nibble (30_encoding.md R90). -/
theorem hostWrite_fault {a : Addr} {v : Byte} {s : State} {f : Fault} (h : hostWrite a v s = .fault f) :
    (a = opAddr ∧ v &&& 0x0F#8 = 0x01#8) ∧ FaultsUnwritten s f := by
  by_cases ha : a = opAddr
  · subst ha
    rw [hostWrite_op] at h
    obtain ⟨henc, hfault⟩ := exec_fault h
    exact ⟨⟨rfl, by rw [← opcode_decodeOp, henc]; rfl⟩, hfault⟩
  · rw [hostWrite_of_ne_op ha] at h; cases h

/-- The low nibble of a code is 1 for ENC alone (30_encoding.md R92, R101). -/
theorem eq_enc_of_opcode {i : Instr} (h : opcode i &&& 0x0F#8 = 0x01#8) : i = .enc := by
  revert h; cases i <;> decide

/-- No CMD byte names an ENC (30_encoding.md R101). -/
theorem decode_wireCmd_ne_enc (c : Byte) (rest : List Byte) : decode .wireCmd [c] ≠ .ok .enc rest := by
  have hne : ∀ c, decodeWireCmd c ≠ some .enc := by decide
  intro h
  simp only [decode] at h
  split at h
  next i hi => cases h; exact hne c hi
  next => cases h

/-- Of the host's actions only a write of ENC to OP faults: a wire command is sent by another operation (30_encoding.md R101). -/
theorem hostAct_fault {act : HostAct} {s : State} {f : Fault} (h : hostAct act s = .fault f) :
    (∃ v, act = .write opAddr v ∧ v &&& 0x0F#8 = 0x01#8) ∧ FaultsUnwritten s f := by
  cases act with
  | read a => cases h
  | write a v =>
    obtain ⟨⟨rfl, hv⟩, hfault⟩ := hostWrite_fault h
    exact ⟨⟨v, rfl, hv⟩, hfault⟩
  | command c =>
    simp only [hostAct] at h
    split at h
    next i rest hi => exact absurd ((exec_fault h).1 ▸ hi) (decode_wireCmd_ne_enc c rest)
    next => cases h

/-- The statements of a host script that ask for an ENC: `op ENC`, and a write of its code to OP (30_encoding.md R103). -/
inductive AsksEnc : HostCtl → Prop
  | op : AsksEnc (.stmt (.op .enc))
  | wr (n : RegName) (v : Byte) (hn : regAddr n = opAddr) (hv : v &&& 0x0F#8 = 0x01#8) : AsksEnc (.stmt (.wr n v))

/-- A statement faults only as a host write of ENC to OP: every other one reads, or moves the script on. -/
theorem runCtl_fault {c : HostCtl} {l : List HostCtl} {s : State} {f : Fault} (h : runCtl c l s = .fault f) :
    AsksEnc c ∧ FaultsUnwritten (setScript l s) f := by
  cases c with
  | stmt st =>
    cases st with
    | wr n v =>
      obtain ⟨⟨hn, hv⟩, hfault⟩ := hostWrite_fault h
      exact ⟨.wr n v hn hv, hfault⟩
    | op i =>
      obtain ⟨⟨-, hi⟩, hfault⟩ := hostWrite_fault h
      cases eq_enc_of_opcode hi
      exact ⟨.op, hfault⟩
    | _ => cases h
  | _ => cases h

theorem hostTurn_fault {s : State} {f : Fault} (h : hostTurn s = .fault f) :
    (∃ c l, s.host.script = c :: l ∧ AsksEnc c) ∧ FaultsUnwritten s f := by
  unfold hostTurn at h
  split at h
  next => cases h
  next c l hscript =>
    obtain ⟨hasks, hf, haccepting, hw⟩ := runCtl_fault h
    exact ⟨⟨c, l, hscript, hasks⟩, hf, haccepting, hw⟩

theorem askCall_ne_fault (c : HostCall) (s : State) (f : Fault) : askCall c s ≠ .fault f := by
  unfold askCall
  split <;> exact nofun

/-- An input faults only where the host, by an access or by a turn of its agent, asks for an ENC. -/
theorem runInput_fault {i : Input} {s : State} {f : Fault} (h : runInput i s = .fault f) :
    ((∃ v, i = .host (.write opAddr v) ∧ v &&& 0x0F#8 = 0x01#8) ∨
      i = .turn ∧ ∃ c l, s.host.script = c :: l ∧ AsksEnc c) ∧ FaultsUnwritten s f := by
  cases i with
  | host act =>
    obtain ⟨⟨v, rfl, hv⟩, hfault⟩ := hostAct_fault h
    exact ⟨.inl ⟨v, rfl, hv⟩, hfault⟩
  | turn => exact (hostTurn_fault h).imp_left fun hasks => .inr ⟨rfl, hasks⟩
  | call c => exact absurd h (askCall_ne_fault c s f)
  | rst _ | ports _ | rx _ => cases h

/-- A step that faults does so on its input. -/
theorem step_fault_cases {s : State} {f : Fault} (h : step s = .fault f) :
    ∃ i rest, s.inputs = i :: rest ∧ runInput i { s with inputs := rest } = .fault f := by
  unfold step at h
  split at h
  next => cases h
  next i rest hin => exact ⟨i, rest, hin, h⟩

/-- Settles O47: `runInput_fault` says which inputs fault, and `exec_cases` that no instruction is refused. -/
theorem onlyEncOfUnwrittenPayloadFaults : Obligations.OnlyEncOfUnwrittenPayloadFaults := by
  refine ⟨fun s f hstep => ?_, exec_ne_refused⟩
  obtain ⟨i, rest, hin, hrun⟩ := step_fault_cases hstep
  obtain ⟨hcause, hf, haccepting, hw⟩ := runInput_fault hrun
  refine ⟨hf, haccepting, hw, ?_⟩
  rcases hcause with ⟨v, rfl, hv⟩ | ⟨rfl, c, l, hscript, hasks⟩
  · exact .inl ⟨v, rest, hin, hv⟩
  · refine .inr ⟨rest, l, hin, ?_⟩
    cases hasks with
    | op => exact .inl hscript
    | wr n v hn hv => exact .inr ⟨n, v, hscript, hn, hv⟩

/-! ## The state after reset -/

/-- Settles O41: the sequencer rests, and the registers hold the values of the reset table. -/
theorem resetStateMeetsTheInvariant : Obligations.ResetStateMeetsTheInvariant := inv_reset

/-- No payload entry has a value after reset (70_reset_and_hazards.md R331). -/
theorem txp_reset (i : Nat) : State.reset.txp i = none := Memory.read_nil _

theorem rxp_reset (i : Nat) : State.reset.rxp i = none := Memory.read_nil _

/-- Settles O43: the registers and hidden fields as `State.reset` writes them out, and no entry in the empty memory. -/
theorem resetLeavesTheSpecsValues : Obligations.ResetLeavesTheSpecsValues := by
  have hpayload : ∀ i, State.reset.txp i = none ∧ State.reset.rxp i = none := fun i => ⟨txp_reset i, rxp_reset i⟩
  exact ⟨rfl, rfl, rfl, rfl, rfl, rfl, rfl, rfl, rfl, rfl, rfl, rfl, rfl, rfl, rfl, rfl, hpayload,
    rfl, rfl, rfl, rfl, rfl, rfl, rfl⟩

/-! ## The inputs of a block in reset -/

/-- A step takes the next input and runs it (log 1). -/
theorem step_input {s : State} {i : Input} {rest : List Input} (h : s.inputs = i :: rest) :
    step s = runInput i { s with inputs := rest } := by
  simp only [step, h]

/-- The fall of rst (70_reset_and_hazards.md R330). -/
theorem sampleRst_falls {s : State} (hs : s.rst = true) : sampleRst false s = resetBlock s := by
  simp [sampleRst, hs]

theorem not_accepting_of_rst {s : State} (hs : s.rst = true) : s.accepting = false := by
  simp [State.accepting, hs]

theorem rxReady_of_rst {s : State} (hs : s.rst = true) : s.rxReady = false := by simp [State.rxReady, hs]

theorem txValid_of_rst {s : State} (hs : s.rst = true) : s.txValid = false := by simp [State.txValid, hs]

/-- A wire command asked of a block in reset is ignored as the write of OP it stands for (log 7). -/
theorem step_command_of_rst {s : State} {i : Instr} {rest : List Input} (hs : s.rst = true) (hi : i.format = .wireCmd)
    (h : HostActs s (.command (opcode i)) rest) : step s = .next { s with inputs := rest } := by
  have hdecode : decode .wireCmd [opcode i] = .ok i [] := by
    cases i with
    | wireStartMeasurement => exact Laws.RoundTrip.wireStartMeasurement
    | wireReadMeasuredValues => exact Laws.RoundTrip.wireReadMeasuredValues
    | _ => cases hi
  obtain ⟨-, hcommand, -⟩ := stepRunsTheWrittenOperation
  exact (hcommand s _ i rest h hdecode).trans (exec_of_not_accepting i _ (not_accepting_of_rst hs))

/-- Settles O44: a block in reset does not accept, and makes no block step; `resetBlock` says what the fall of rst
leaves. -/
theorem resetInputLeavesTheResetState : Obligations.ResetInputLeavesTheResetState := by
  intro s rest
  refine ⟨step_input, fun hs => ?_⟩
  have hin : ({ s with inputs := rest } : State).rst = true := hs
  have hwire : ∀ i ∈ [Instr.wireStartMeasurement, .wireReadMeasuredValues], i.format = .wireCmd := by decide
  refine ⟨rxReady_of_rst hs, txValid_of_rst hs, fun a v h => ?_, fun i hi h => step_command_of_rst hs (hwire i hi) h,
    fun p h => ?_, fun h => ?_⟩
  · exact (step_hostAct h).trans (hostWrite_of_not_accepting a v (not_accepting_of_rst hin))
  · exact (step_input h).trans (congrArg Host.Outcome.next (blockStep_of_rst p _ hin))
  · exact (step_input h).trans (congrArg Host.Outcome.next (sampleRst_falls hin))

end Sys2Proof.Machine
end
